-- ==== Sys2Proof/Word.lean ====
section
/-! DEFINITION. The word types: the 8-bit chip register, the 16-bit command word, and the six bytes of a burst
(10_state.md R28, 20_memory.md R50, 30_encoding.md R80). -/

namespace Sys2Proof

/-- A chip register, a register address or one byte on the bus (20_memory.md R50). -/
abbrev Byte := BitVec 8

/-- A command word (30_encoding.md R80). -/
abbrev CmdWord := BitVec 16

/-- Six bytes in the order received, `b0` first: the receive buffer `BUF[0..5]` (10_state.md R28) and the bytes a
read transaction brings (10_state.md R38, `bt_rsp_rdata`). -/
structure Bytes6 where
  b0 : Byte
  b1 : Byte
  b2 : Byte
  b3 : Byte
  b4 : Byte
  b5 : Byte
  deriving DecidableEq, Repr, Inhabited

end Sys2Proof
end

