-- ==== Sys2Proof/Syntax.lean ====
section
/-! DEFINITION. The instructions: one constructor per row of spec/opcode_table.json. The seven commands of
30_encoding.md R81 come first, then the nine register-level operations of R91. Each operand has exactly the width
its rule gives it, so no illegal operand can be written. -/

namespace Sys2Proof

/-- The rows of the opcode table. -/
inductive Instr where
  /-- `INIT a7`: a 7-bit device address (42_init.md R160). -/
  | init (a7 : BitVec 7)
  /-- `READ mask`: bit 0 selects X, bit 1 Y, bit 2 Z (43_read.md R180). -/
  | read (mask : BitVec 3)
  /-- `SET_THRESH t` (44_threshold.md R195). -/
  | setThresh (t : Byte)
  /-- `INT_QUERY` (45_interrupts.md R200). -/
  | intQuery
  /-- `INT_ENABLE` (45_interrupts.md R205). -/
  | intEnable
  /-- `INT_DISABLE` (45_interrupts.md R216). -/
  | intDisable
  /-- `INT_HANDLE` (45_interrupts.md R220). -/
  | intHandle
  /-- `WR_THRESH_ACT v` (40_register_access.md R120). -/
  | wrThreshAct (v : Byte)
  /-- `WR_ACT_INACT_CTL v` (R121). -/
  | wrActInactCtl (v : Byte)
  /-- `WR_BW_RATE v` (R122). -/
  | wrBwRate (v : Byte)
  /-- `WR_POWER_CTL v` (R123). -/
  | wrPowerCtl (v : Byte)
  /-- `WR_INT_ENABLE v` (R124). -/
  | wrIntEnable (v : Byte)
  /-- `RD_DEVID` (R125). -/
  | rdDevid
  /-- `RD_INT_ENABLE` (R126). -/
  | rdIntEnable
  /-- `RD_INT_SOURCE` (R127). -/
  | rdIntSource
  /-- `RD_DATA` (R128). -/
  | rdData
  deriving DecidableEq, Repr

end Sys2Proof
end

