-- ==== Sys2Proof/WellFormed.lean ====
section
/-! DEFINITION. What an instruction looks like where the machine takes it from (`Encoding`), and which encodings are
well formed: the reserved command words of 30_encoding.md R87 and the register-level map of R91, written as
conditions on the bits and apart from the decoder. -/

namespace Sys2Proof

/-- The two places an instruction stands in (10_state.md R32, 30_encoding.md R80 and R91): a word on the command
channel, or the bytes of a write transaction. The length of the bytes tells a write from a select. -/
inductive Encoding where
  | command (w : CmdWord)
  | registerOp (bytes : List Byte)
  deriving DecidableEq, Repr

/-- The opcode field, bits 15:12 (30_encoding.md R80). -/
def CmdWord.opc (w : CmdWord) : BitVec 4 := w.extractLsb' 12 4

/-- The reserved command words, clause by clause as 30_encoding.md R87 lists them. -/
def CmdWord.reserved (w : CmdWord) : Bool :=
  CmdWord.opc w == 0
    || 8 ≤ CmdWord.opc w
    || w.getLsbD 11
    || (CmdWord.opc w == 1 && w.extractLsb' 7 4 != 0)
    || (CmdWord.opc w == 2 && w.extractLsb' 0 8 != 0)
    || (CmdWord.opc w == 3 && w.extractLsb' 8 3 != 0)
    || (4 ≤ CmdWord.opc w && CmdWord.opc w ≤ 7 && w.extractLsb' 0 11 != 0)

/-- The encodings that stand for an instruction: command words that are not reserved, and the byte sequences of
30_encoding.md R91. -/
def Encoding.wf : Encoding → Bool
  | .command w => !CmdWord.reserved w
  | .registerOp [r, _] => r == 0x24 || r == 0x27 || r == 0x2C || r == 0x2D || r == 0x2E
  | .registerOp [r] => r == 0x00 || r == 0x2E || r == 0x30 || r == 0x32
  | .registerOp _ => false

/-- Whether an instruction's operands are legal. The operand types admit exactly the legal values (30_encoding.md
R83: a 7-bit address; R84: all 256 thresholds; R85: all 8 masks; R91: any value byte), so every term is. -/
def Instr.wf : Instr → Bool
  | .init _ | .read _ | .setThresh _ => true
  | .intQuery | .intEnable | .intDisable | .intHandle => true
  | .wrThreshAct _ | .wrActInactCtl _ | .wrBwRate _ | .wrPowerCtl _ | .wrIntEnable _ => true
  | .rdDevid | .rdIntEnable | .rdIntSource | .rdData => true

end Sys2Proof
end

