-- ==== Sys2Proof/Decode.lean ====
section
/-! DEFINITION. Decoding, total on every encoding, and the encoder (30_encoding.md R81, R82, R91). The register
addresses are those of 00_scope.md R7 and 20_memory.md R51. -/

namespace Sys2Proof

/-- `REG_DEVID` (00_scope.md R7). -/
abbrev regDevid : Byte := 0x00
/-- `REG_THRESH_ACT`. -/
abbrev regThreshAct : Byte := 0x24
/-- `REG_ACT_INACT_CTL`. -/
abbrev regActInactCtl : Byte := 0x27
/-- `REG_BW_RATE`. -/
abbrev regBwRate : Byte := 0x2C
/-- `REG_POWER_CTL`. -/
abbrev regPowerCtl : Byte := 0x2D
/-- `REG_INT_ENABLE`. -/
abbrev regIntEnable : Byte := 0x2E
/-- `REG_INT_SOURCE`. -/
abbrev regIntSource : Byte := 0x30
/-- `REG_DATA`, the first of the six sample bytes. -/
abbrev regData : Byte := 0x32

/-- Why an encoding is rejected. -/
inductive Reject where
  /-- A command word that matches no row (30_encoding.md R82, class `E_RESERVED` of 60_exceptions.md R231). -/
  | reservedWord
  /-- The bytes of no register-level operation of 30_encoding.md R91. -/
  | unknownRegisterOp
  deriving DecidableEq, Repr

/-- What decoding answers. -/
inductive Decoded where
  | instr (i : Instr)
  | rejected (r : Reject)
  deriving DecidableEq, Repr

/-- A row of the command table (30_encoding.md R81): the match value and the mask of the bits it fixes. -/
structure CmdRow where
  value : CmdWord
  mask  : CmdWord
  deriving DecidableEq, Repr

/-- "A word `w` spells the command of a row iff `w & mask == match`" (30_encoding.md R81). -/
def CmdRow.spells (r : CmdRow) (w : CmdWord) : Bool := w &&& r.mask == r.value

abbrev rowInit : CmdRow := ⟨0x1000, 0xFF80⟩
abbrev rowRead : CmdRow := ⟨0x2000, 0xF8FF⟩
abbrev rowSetThresh : CmdRow := ⟨0x3000, 0xFF00⟩
abbrev rowIntQuery : CmdRow := ⟨0x4000, 0xFFFF⟩
abbrev rowIntEnable : CmdRow := ⟨0x5000, 0xFFFF⟩
abbrev rowIntDisable : CmdRow := ⟨0x6000, 0xFFFF⟩
abbrev rowIntHandle : CmdRow := ⟨0x7000, 0xFFFF⟩

/-- The seven rows of 30_encoding.md R81, in the table's order. -/
def cmdRows : List CmdRow :=
  [rowInit, rowRead, rowSetThresh, rowIntQuery, rowIntEnable, rowIntDisable, rowIntHandle]

/-- Decoding of a command word (30_encoding.md R82), from the word alone. -/
def decodeCommand (w : CmdWord) : Decoded :=
  if rowInit.spells w then .instr (.init (w.extractLsb' 0 7))
  else if rowRead.spells w then .instr (.read (w.extractLsb' 8 3))
  else if rowSetThresh.spells w then .instr (.setThresh (w.extractLsb' 0 8))
  else if rowIntQuery.spells w then .instr .intQuery
  else if rowIntEnable.spells w then .instr .intEnable
  else if rowIntDisable.spells w then .instr .intDisable
  else if rowIntHandle.spells w then .instr .intHandle
  else .rejected .reservedWord

/-- Decoding of a write transaction's bytes (30_encoding.md R91): the first byte selects the register and the
length tells a register write from a select. -/
def decodeRegisterOp : List Byte → Decoded
  | [r, v] =>
    if r = regThreshAct then .instr (.wrThreshAct v)
    else if r = regActInactCtl then .instr (.wrActInactCtl v)
    else if r = regBwRate then .instr (.wrBwRate v)
    else if r = regPowerCtl then .instr (.wrPowerCtl v)
    else if r = regIntEnable then .instr (.wrIntEnable v)
    else .rejected .unknownRegisterOp
  | [r] =>
    if r = regDevid then .instr .rdDevid
    else if r = regIntEnable then .instr .rdIntEnable
    else if r = regIntSource then .instr .rdIntSource
    else if r = regData then .instr .rdData
    else .rejected .unknownRegisterOp
  | _ => .rejected .unknownRegisterOp

/-- Decoding, total on every encoding. -/
def decode : Encoding → Decoded
  | .command w => decodeCommand w
  | .registerOp bytes => decodeRegisterOp bytes

/-! The encoder, from the word column of 30_encoding.md R98 and the byte columns of R91. -/

/-- `INIT <a7>`: `0x1000 | a7`. -/
def initWord (a7 : BitVec 7) : CmdWord := 0x1000 ||| a7.setWidth 16
/-- `READ <slots>`: `0x2000 | mask << 8`. -/
def readWord (mask : BitVec 3) : CmdWord := 0x2000 ||| (mask.setWidth 16 <<< 8)
/-- `SET_THRESH <t>`: `0x3000 | t`. -/
def setThreshWord (t : Byte) : CmdWord := 0x3000 ||| t.setWidth 16

/-- The words of an instruction. -/
def encode : Instr → Encoding
  | .init a7 => .command (initWord a7)
  | .read mask => .command (readWord mask)
  | .setThresh t => .command (setThreshWord t)
  | .intQuery => .command 0x4000
  | .intEnable => .command 0x5000
  | .intDisable => .command 0x6000
  | .intHandle => .command 0x7000
  | .wrThreshAct v => .registerOp [regThreshAct, v]
  | .wrActInactCtl v => .registerOp [regActInactCtl, v]
  | .wrBwRate v => .registerOp [regBwRate, v]
  | .wrPowerCtl v => .registerOp [regPowerCtl, v]
  | .wrIntEnable v => .registerOp [regIntEnable, v]
  | .rdDevid => .registerOp [regDevid]
  | .rdIntEnable => .registerOp [regIntEnable]
  | .rdIntSource => .registerOp [regIntSource]
  | .rdData => .registerOp [regData]

/-- The encoding that `nbits` bits of the opcode table stand for (spec/opcode_table.json). A row of 8 bits is the
one byte of a select. A row of 16 bits is `byte0` over `byte1` of a register write, or a command word, and the table
does not say which. Bits of a register write of R91 are read as one, every other word as a command word
(log entry 6: `0x2400` and `0x2700` spell both; the machine itself never meets the question, since an `Encoding`
says where it stands). -/
def tableEncoding (nbits w : Nat) : Encoding :=
  if nbits ≤ 8 then .registerOp [BitVec.ofNat 8 w]
  else
    match decodeRegisterOp [BitVec.ofNat 8 (w / 256), BitVec.ofNat 8 w] with
    | .instr _ => .registerOp [BitVec.ofNat 8 (w / 256), BitVec.ofNat 8 w]
    | .rejected _ => .command (BitVec.ofNat 16 w)

/-- The instruction the decoder reads from `nbits` bits numbered as the opcode table numbers them. -/
def decodeTableWord (nbits w : Nat) : Option Instr :=
  match decode (tableEncoding nbits w) with
  | .instr i => some i
  | .rejected _ => none

end Sys2Proof
end

