-- ==== Sys2Proof/Config.lean ====
section
/-! DEFINITION. What the spec leaves open. The parameters the source describes and gives no value (00_scope.md R8,
93_implementation_defined.md U15) are constants without a body, so a statement about the machine holds for every
value of them. So are the free values: what a register without a reset value holds after a reset (U10, U7), and what
the receive buffer holds after a failed read (U4). -/

namespace Sys2Proof

/-- Where INT_ENABLE's flush stands: after the first, second, third or fourth configuration write
(45_interrupts.md R208, `P_FLUSH_POS` in 1..4). -/
inductive FlushPos where
  | after1 | after2 | after3 | after4
  deriving DecidableEq, Repr, Inhabited

/-- `P_FLUSH_POS` as a number. -/
def FlushPos.toNat : FlushPos → Nat
  | .after1 => 1
  | .after2 => 2
  | .after3 => 3
  | .after4 => 4

/-- The parameters of 00_scope.md R8, which a command takes as an argument. -/
structure Params where
  /-- `P_THRESH_DEFAULT` -/
  threshDefault : Byte
  /-- `P_ACT_CTL` -/
  actCtl : Byte
  /-- `P_BW_RATE` -/
  bwRate : Byte
  /-- `P_INT_ACT` -/
  intAct : Byte
  /-- `P_MEASURE` -/
  measure : Byte
  /-- `P_SETTLE`, a duration in no stated unit -/
  settle : Nat
  /-- `P_DEFAULT_ADDR` -/
  defaultAddr : BitVec 7
  /-- `P_FLUSH_POS` -/
  flushPos : FlushPos
  deriving DecidableEq, Repr, Inhabited

namespace Config

/-- `P_THRESH_DEFAULT` (00_scope.md R8): "a low default", no value in the source. -/
opaque threshDefault : Byte
/-- `P_ACT_CTL` (R8): no value in the source. -/
opaque actCtl : Byte
/-- `P_BW_RATE` (R8): no value in the source. -/
opaque bwRate : Byte
/-- `P_INT_ACT` (R8): no value in the source. -/
opaque intAct : Byte
/-- `P_MEASURE` (R8): no value in the source. -/
opaque measure : Byte
/-- `P_SETTLE` (R8): no value in the source. -/
opaque settle : Nat
/-- `P_DEFAULT_ADDR` (R8): no value in the source. -/
opaque defaultAddr : BitVec 7

/-- The registers 70_reset_and_hazards.md R260 calls unspecified after reset. -/
structure Unspecified where
  outX : BitVec 16
  outY : BitVec 16
  outZ : BitVec 16
  devaddr : Byte
  op : BitVec 4
  arg : BitVec 12
  acc : Bool
  buf : Bytes6
  deriving DecidableEq, Repr, Inhabited

/-- FREE VALUE (log entry 1): what the unspecified registers hold after a reset, a draw per reset. -/
opaque atReset : Nat → Unspecified

/-- FREE VALUE (log entry 2): the receive buffer after a failed read transaction (40_register_access.md R111), a draw
per failed read. -/
opaque failedRead : Nat → Bytes6

end Config

end Sys2Proof
end

