-- ==== Sys2Proof/Machine/State.lean ====
section
/-! DEFINITION. The state as plain data: the registers of 10_state.md R20 to R29, the ports of R38, the trace of
20_memory.md R67, and the environment (the transport and the host) that a step reads. -/

namespace Sys2Proof.Machine

/-- The chip register space (20_memory.md R50) as address and byte pairs, addresses strictly rising, no entry equal
to what an unlisted address reads as (`Memory.initial`). -/
abbrev Memory := List Host.Cell

/-- A transaction presented to the bus transport (30_encoding.md R89): `W(a, bytes)` or `R(a, n)`. -/
inductive Request where
  | write (a : Byte) (bytes : List Byte)
  | read (a : Byte) (n : Nat)
  deriving DecidableEq, Repr

/-- The transport's answer (20_memory.md R59): success, with the bytes received where the transaction was a read, or
failure. A read of `n` bytes uses the first `n`; the answer to a write uses none (log entry 20). -/
inductive Answer where
  | success (data : Bytes6)
  | failure
  deriving DecidableEq, Repr

/-- The reference chip of 95_test_vectors.md section 4: a fixture that refines the transport oracle, not a
description of the accelerometer (log entry 16). -/
structure RefChip where
  addr7 : BitVec 7
  regs  : Memory
  ptr   : Byte
  deriving DecidableEq, Repr

/-- The bus transport seen from SEQ, an oracle (20_memory.md R59): answers still to come, in order, whatever is asked
(the scripted transport), or the reference chip. An empty script is a transport that has not answered (log entry 3). -/
inductive Transport where
  | scripted (answers : List Answer)
  | chip (c : RefChip)
  deriving DecidableEq, Repr

/-- An event of the trace (20_memory.md R67) with the transport's answer; `wait` is READ's settle wait
(43_read.md R188). -/
inductive Event where
  | write (a : Byte) (bytes : List Byte) (ok : Bool)
  | read (a : Byte) (n : Nat) (ok : Bool) (bytes : List Byte)
  | wait (duration : Nat)
  deriving DecidableEq, Repr

/-- What is handed back to whoever issued an instruction: a command's response (10_state.md R29), or the status of a
register-level operation (40_register_access.md R118). -/
inductive Delivery where
  | response (ok : Bool) (ev : BitVec 3)
  | status (ok : Bool)
  deriving DecidableEq, Repr

/-- What the outside presents to the machine, taken one at a time (log entry 4). -/
inductive HostEvent where
  /-- An instruction: a command word on the command channel (10_state.md R38), or a register-level operation. -/
  | issue (e : Encoding)
  /-- The reset input (70_reset_and_hazards.md R260). -/
  | reset
  /-- The chip's own activity between commands: register `r` comes to hold `v` (10_state.md R33). -/
  | chipActivity (r v : Byte)
  deriving DecidableEq, Repr

/-- Why the machine stops. SEQ itself never traps (60_exceptions.md R230). -/
inductive Fault where
  /-- Raised by `step` when BUSY is 1 and OP, ARG and STEP name no row of a step table, so that the spec gives no
  next step. Safe: the machine stops, and no run reaches it. -/
  | noSuchStep
  /-- Raised by `step` when BUSY is 0 and the transaction outstanding at the port is none of a register-level
  operation's. Safe: the machine stops, and no run reaches it. -/
  | noSuchRequest
  deriving DecidableEq, Repr

/-- Why the model gives no meaning. -/
inductive Refusal where
  /-- An instruction without a meaning, by its mnemonic. Safe. -/
  | notModelled (mnemonic : String)
  /-- Raised by `step` on a reset while a command or a transaction is outstanding (70_reset_and_hazards.md R262: "a
  model should refuse to give such a run a meaning"). Safe. -/
  | resetDuringCommand
  /-- Raised by `step` on register-level bytes of no row of 30_encoding.md R91, which SEQ never issues
  (93_implementation_defined.md U18). Safe. -/
  | unknownRegisterOp
  deriving DecidableEq, Repr

structure State where
  /-- `OUT[0]` (10_state.md R20) -/
  outX : BitVec 16
  /-- `OUT[1]` (R20) -/
  outY : BitVec 16
  /-- `OUT[2]` (R20) -/
  outZ : BitVec 16
  /-- `DEVADDR` (R21) -/
  devaddr : Byte
  /-- `RDY` (R22) -/
  rdy : Bool
  /-- `BUSY` (R25) -/
  busy : Bool
  /-- `OP` (R25) -/
  op : BitVec 4
  /-- `ARG` (R25) -/
  arg : BitVec 12
  /-- `STEP`, the program counter (R26) -/
  stepNo : BitVec 4
  /-- `ACC` (R27) -/
  acc : Bool
  /-- `BUF[0..5]` (R28) -/
  buf : Bytes6
  /-- `RESP_OK` (R29) -/
  respOk : Bool
  /-- `RESP_EV` (R29) -/
  respEv : BitVec 3
  /-- The transaction presented at the transport port and not answered yet (R38, 40_register_access.md R112). -/
  req : Option Request
  /-- The bus transport (20_memory.md R59). -/
  bus : Transport
  /-- What the outside presents, oldest first. -/
  inbox : List HostEvent
  /-- The trace, oldest first (20_memory.md R67). -/
  trace : List Event
  /-- What has been handed back, oldest first (70_reset_and_hazards.md R278). -/
  delivered : List Delivery
  /-- The MODEL's own: how many free values have been drawn (log entry 2). -/
  draws : Nat
  deriving DecidableEq, Repr

/-- The reset values of 70_reset_and_hazards.md R260 over draws `u` for the unspecified registers; the transport, the
host's inputs and the record are not SEQ's and stand as given. -/
def State.ofReset (u : Config.Unspecified) (bus : Transport) (inbox : List HostEvent) (trace : List Event)
    (delivered : List Delivery) (draws : Nat) : State where
  outX := u.outX
  outY := u.outY
  outZ := u.outZ
  devaddr := u.devaddr
  rdy := false
  busy := false
  op := u.op
  arg := u.arg
  stepNo := 0
  acc := u.acc
  buf := u.buf
  respOk := false
  respEv := 0
  req := none
  bus := bus
  inbox := inbox
  trace := trace
  delivered := delivered
  draws := draws

/-- The machine right after reset (70_reset_and_hazards.md R260): idle, not ready, nothing presented, nothing answered,
nothing recorded. -/
def State.reset : State := State.ofReset (Config.atReset 0) (.scripted []) [] [] [] 1

end Sys2Proof.Machine
end

