-- ==== Sys2Proof/Machine/Memory.lean ====
section
/-! DEFINITION. The chip register space as canonical data (20_memory.md R50, 95_test_vectors.md section 4): reading,
writing, and the canonical form. -/

namespace Sys2Proof.Machine

/-- What an unlisted address reads as: the reference chip's initial contents ("Initially `reg[0x00] = 0xE5`, all
others `0x00`", 95_test_vectors.md section 4). -/
def Memory.initial (a : Nat) : Byte := if a = 0 then 0xE5 else 0x00

/-- The register at address `a`. -/
def Memory.read : Memory → Nat → Byte
  | [], a => Memory.initial a
  | (b, v) :: rest, a => if a = b then v else Memory.read rest a

/-- Puts `(a, v)` before `rest`, or nothing where `v` is what an unlisted `a` reads as. -/
def Memory.put (a : Nat) (v : Byte) (rest : Memory) : Memory :=
  if v = Memory.initial a then rest else (a, v) :: rest

/-- The register at `a` takes the value `v`; the canonical form is kept. -/
def Memory.write : Memory → Nat → Byte → Memory
  | [], a, v => Memory.put a v []
  | (b, w) :: rest, a, v =>
    if a < b then Memory.put a v ((b, w) :: rest)
    else if a = b then Memory.put a v rest
    else (b, w) :: Memory.write rest a v

/-- Canonical from address `lo` on: addresses strictly rising and below 256, no entry an unlisted address would read
as. -/
def Memory.wfFrom : Nat → Memory → Bool
  | _, [] => true
  | lo, (b, v) :: rest => lo ≤ b && b < 256 && v != Memory.initial b && Memory.wfFrom (b + 1) rest

/-- The canonical form. -/
def Memory.wf (m : Memory) : Bool := Memory.wfFrom 0 m

end Sys2Proof.Machine
end

