-- ==== Sys2Proof/Machine/Operands.lean ====
section
/-! DEFINITION. Operand forms: the bus form of an address (30_encoding.md R83), the slot mask (R85), the sample bytes
(41_decoders.md R143, R144), the received bytes, and the parameters (00_scope.md R8). -/

namespace Sys2Proof.Machine

/-- The 8-bit bus form of a 7-bit device address, `{a7, 0}` (30_encoding.md R83). -/
def busForm (a7 : BitVec 7) : Byte := a7.setWidth 8 <<< 1

/-- `sample16(lo, hi) = {hi, lo}`, read as signed (41_decoders.md R144). -/
def sample16 (lo hi : Byte) : BitVec 16 := hi ++ lo

/-- The three samples of a burst, X, Y and Z (41_decoders.md R143). -/
def unpackXyz (b : Bytes6) : BitVec 16 × BitVec 16 × BitVec 16 :=
  (sample16 b.b0 b.b1, sample16 b.b2 b.b3, sample16 b.b4 b.b5)

/-- The first `n` bytes in the order received. -/
def Bytes6.firstN (n : Nat) (d : Bytes6) : List Byte := [d.b0, d.b1, d.b2, d.b3, d.b4, d.b5].take n

/-- `BUF[i] <- d[i]` for `i` below `n`, the rest unchanged (40_register_access.md R111). -/
def Bytes6.fill (n : Nat) (d old : Bytes6) : Bytes6 where
  b0 := if 0 < n then d.b0 else old.b0
  b1 := if 1 < n then d.b1 else old.b1
  b2 := if 2 < n then d.b2 else old.b2
  b3 := if 3 < n then d.b3 else old.b3
  b4 := if 4 < n then d.b4 else old.b4
  b5 := if 5 < n then d.b5 else old.b5

/-- Whether a transaction succeeded: the status bit, 1 for success (00_scope.md R12). -/
def Answer.ok : Answer → Bool
  | .success _ => true
  | .failure => false

/-- The machine's parameters: the open constants of 00_scope.md R8, and `P_FLUSH_POS = 4`, which the spec decides
(45_interrupts.md R208, D11; DESIGN CHOICE of the spec, log entry 11). -/
def params : Params where
  threshDefault := Config.threshDefault
  actCtl := Config.actCtl
  bwRate := Config.bwRate
  intAct := Config.intAct
  measure := Config.measure
  settle := Config.settle
  defaultAddr := Config.defaultAddr
  flushPos := .after4

/-- The six configuration writes, register and value, in order (42_init.md R166, 45_interrupts.md R207). -/
def configSequence (P : Params) : List (Byte × Byte) :=
  [(regIntEnable, 0x00), (regThreshAct, P.threshDefault), (regActInactCtl, P.actCtl), (regBwRate, P.bwRate),
    (regIntEnable, P.intAct), (regPowerCtl, P.measure)]

/-- How many bytes the read after a select brings: six from the data registers, else one (30_encoding.md R91). -/
def readLength (r : Byte) : Nat := if r = regData then 6 else 1

end Sys2Proof.Machine
end

