-- ==== Sys2Proof/Machine/Chip.lean ====
section
/-! DEFINITION. How the transport answers: the scripted transport and the reference chip of 95_test_vectors.md
section 4, which carries what the spec says of the chip's registers (20_memory.md R50, R58, R60). -/

namespace Sys2Proof.Machine

/-- The reference chip as it stands before any transaction. -/
def RefChip.fresh (addr7 : BitVec 7) : RefChip := ⟨addr7, [], 0⟩

/-- The register at address `a`. -/
def RefChip.reg (c : RefChip) (a : Byte) : Byte := c.regs.read a.toNat

/-- Register `r` comes to hold `v`. -/
def RefChip.setReg (c : RefChip) (r v : Byte) : RefChip := { c with regs := c.regs.write r.toNat v }

/-- The six bytes from the pointer on, addresses modulo 256. -/
def RefChip.bytesAtPtr (c : RefChip) : Bytes6 :=
  ⟨c.reg c.ptr, c.reg (c.ptr + 1), c.reg (c.ptr + 2), c.reg (c.ptr + 3), c.reg (c.ptr + 4), c.reg (c.ptr + 5)⟩

/-- A read of `n` bytes clears `reg[0x30]` where `0x30` is among them (20_memory.md R58), and moves the pointer by `n`
(R60). -/
def RefChip.afterRead (c : RefChip) (n : Nat) : RefChip :=
  let c := if (regIntSource - c.ptr).toNat < n then c.setReg regIntSource 0x00 else c
  { c with ptr := c.ptr + BitVec.ofNat 8 n }

/-- The reference chip's answer to a transaction, and the chip after it. The fixture defines writes of one and two
bytes only; to any other write it gives no answer. -/
def RefChip.respond (c : RefChip) : Request → Option (Answer × RefChip)
  | .write a [r] =>
    if a = busForm c.addr7 then some (.success c.bytesAtPtr, { c with ptr := r }) else some (.failure, c)
  | .write a [r, v] =>
    if a = busForm c.addr7 then
      some (.success c.bytesAtPtr, { (if r = regDevid then c else c.setReg r v) with ptr := r + 1 })
    else some (.failure, c)
  | .write _ _ => none
  | .read a n =>
    if a = busForm c.addr7 then some (.success c.bytesAtPtr, c.afterRead n) else some (.failure, c)

/-- The transport's answer to a transaction and the transport after it, or none while it has not answered
(20_memory.md R59, 40_register_access.md R112). -/
def Transport.respond : Transport → Request → Option (Answer × Transport)
  | .scripted [], _ => none
  | .scripted (a :: rest), _ => some (a, .scripted rest)
  | .chip c, r => (c.respond r).map fun p => (p.1, .chip p.2)

/-- The answers to a list of transactions in order, where all are answered. -/
def Transport.replies : Transport → List Request → Option (List Answer × Transport)
  | t, [] => some ([], t)
  | t, r :: rest =>
    match t.respond r with
    | none => none
    | some (a, t') =>
      match Transport.replies t' rest with
      | none => none
      | some (as, t'') => some (a :: as, t'')

/-- The transport with further answers to come. The reference chip has its answers in itself. -/
def Transport.extend (more : List Answer) : Transport → Transport
  | .scripted answers => .scripted (answers ++ more)
  | .chip c => .chip c

/-- The chip changes one of its registers on its own (10_state.md R33; "The test may write any `reg` between
commands", 95_test_vectors.md section 4). An oracle's answers are open already. -/
def Transport.activity (r v : Byte) : Transport → Transport
  | .scripted answers => .scripted answers
  | .chip c => .chip (c.setReg r v)

/-- The chip register at `a`, where the transport is the reference chip. -/
def Transport.reg (a : Byte) : Transport → Option Byte
  | .scripted _ => none
  | .chip c => some (c.reg a)

/-- The chip register space is in its canonical form. -/
def Transport.wf : Transport → Bool
  | .scripted _ => true
  | .chip c => c.regs.wf

end Sys2Proof.Machine
end

