-- ==== Sys2Proof/Machine/Flags.lean ====
section
/-! DEFINITION. The one-bit and three-bit results (41_decoders.md R140 to R142) and the two flags of 10_state.md R31
as a status folds into them (41_decoders.md R145 e). -/

namespace Sys2Proof.Machine

/-- `ID_CONST` (00_scope.md R7). -/
abbrev idConst : Byte := 0xE5
/-- `M_ACT` (00_scope.md R7, 90_conflicts.md C5). -/
abbrev maskActivity : Byte := 0x10
/-- `M_ST` (00_scope.md R7, 90_conflicts.md C5). -/
abbrev maskSingleTap : Byte := 0x40
/-- `M_DT` (00_scope.md R9, D15; DESIGN CHOICE of the spec, log entry 10). -/
abbrev maskDoubleTap : Byte := 0x20

/-- `id_match` (41_decoders.md R140). -/
def idMatch (b : Byte) : Bool := b == idConst

/-- `any_enabled` (41_decoders.md R141). -/
def anyEnabled (b : Byte) : Bool := b != 0x00

/-- `decode_events` (41_decoders.md R142): bit 0 activity, bit 1 single tap, bit 2 double tap. -/
def decodeEvents (b : Byte) : BitVec 3 :=
  BitVec.ofBool (b &&& maskDoubleTap != 0) ++ BitVec.ofBool (b &&& maskSingleTap != 0)
    ++ BitVec.ofBool (b &&& maskActivity != 0)

/-- INIT's fold: a failed write clears RDY, no success sets it again (42_init.md R168). -/
def foldRdy (ok : Bool) (s : State) : State := { s with rdy := s.rdy && ok }

/-- INT_ENABLE's fold: `ACC <- ACC & s` (10_state.md R27). -/
def foldAcc (ok : Bool) (s : State) : State := { s with acc := s.acc && ok }

end Sys2Proof.Machine
end

