-- ==== Sys2Proof/Machine/Ops.lean ====
section
/-! DEFINITION. The shared operations: accepting a command (10_state.md R25), ending it (R29), the transport
primitives with their wait (40_register_access.md R110 to R112), the register operations built on them (R113 to
R115), and reset (70_reset_and_hazards.md R260, R262). SEQ has no exceptions: `complete` stands in place of trap entry
and nothing in place of a return (60_exceptions.md R234, R235).

An operation that needs an answer takes what is done with it as `go`. Where the transport has not answered, the state
is the waiting one and `go` is not run. -/

namespace Sys2Proof.Machine

/-- What a step or a meaning answers. -/
abbrev Result := Host.Outcome State Fault Refusal

/-- Acceptance of command word `w`: `BUSY`, `OP`, `ARG` and `STEP` (10_state.md R25, R26). Nothing is outstanding at
the port then (20_memory.md R62). -/
def accept (w : CmdWord) (s : State) : State :=
  { s with busy := true, op := w.extractLsb' 12 4, arg := w.extractLsb' 0 12, stepNo := 0, req := none }

/-- `complete(ok, ev)` (10_state.md R29): the response registers, `BUSY` and `STEP` at once, and the response is
presented to the host. -/
def complete (ok : Bool) (ev : BitVec 3) (s : State) : State :=
  { s with
    respOk := ok, respEv := ev, busy := false, stepNo := 0, delivered := s.delivered ++ [.response ok ev] }

/-- Waiting at step `k` with transaction `r` presented (40_register_access.md R112). -/
def await (k : BitVec 4) (r : Request) (s : State) : State := { s with stepNo := k, req := some r }

/-- A transaction is answered: the transport goes on to `t`, the trace takes the event, nothing is outstanding. -/
def answered (e : Event) (t : Transport) (s : State) : State :=
  { s with bus := t, trace := s.trace ++ [e], req := none }

/-- A successful read of `n` bytes fills `BUF[0..n-1]` (40_register_access.md R111). -/
def fillBuf (n : Nat) (d : Bytes6) (s : State) : State := { s with buf := Bytes6.fill n d s.buf }

/-- A failed read leaves `BUF` unspecified (10_state.md R28): a fresh free value. -/
def scrambleBuf (s : State) : State := { s with buf := Config.failedRead s.draws, draws := s.draws + 1 }

/-- `BusWrite(DEVADDR, bytes)` at step `k` (40_register_access.md R110). -/
def busWrite (k : BitVec 4) (bytes : List Byte) (s : State) (go : Bool → State → State) : State :=
  match s.bus.respond (.write s.devaddr bytes) with
  | none => await k (.write s.devaddr bytes) s
  | some (a, t) => go a.ok (answered (.write s.devaddr bytes a.ok) t s)

/-- `BusRead(DEVADDR, n)` at step `k` (40_register_access.md R111). -/
def busRead (k : BitVec 4) (n : Nat) (s : State) (go : Bool → State → State) : State :=
  match s.bus.respond (.read s.devaddr n) with
  | none => await k (.read s.devaddr n) s
  | some (.success d, t) => go true (fillBuf n d (answered (.read s.devaddr n true (Bytes6.firstN n d)) t s))
  | some (.failure, t) => go false (scrambleBuf (answered (.read s.devaddr n false []) t s))

/-- `RegWrite(r, values)` (40_register_access.md R113): one combined write. -/
def regWrite (k : BitVec 4) (r : Byte) (values : List Byte) (s : State) (go : Bool → State → State) : State :=
  busWrite k (r :: values) s go

/-- `RegSelect(r)` (40_register_access.md R114): the primitive with no destination, which no command uses. -/
def regSelect (k : BitVec 4) (r : Byte) (s : State) (go : Bool → State → State) : State :=
  busWrite k [r] s go

/-- `RegRead(r, n)` (40_register_access.md R115), its phases at steps `k₁` and `k₂`. When the select fails the read
is not issued (R116, D10; log entry 8) and
`BUF` keeps what it held (DEDUCED from R110 and 10_state.md R28; log entry 25). -/
def regRead (k₁ k₂ : BitVec 4) (r : Byte) (n : Nat) (s : State) (go : Bool → State → State) : State :=
  regSelect k₁ r s fun ok s => if ok then busRead k₂ n s go else go false s

/-- The readiness test at step 0 of every command but INIT (10_state.md R36): with `RDY = 0` the zero response and no
transaction. -/
def ifReady (s : State) (go : State → State) : State := if s.rdy then go s else complete false 0 s

/-- Configuration writes at steps `k`, `k+1`, …, each attempted whatever the others' statuses, each status folded by
`fold` (42_init.md R167, 45_interrupts.md R210). -/
def configWrites (k : BitVec 4) (fold : Bool → State → State) : List (Byte × Byte) → State → (State → State) → State
  | [], s, go => go s
  | (r, v) :: rest, s, go =>
    regWrite k r [v] s fun ok s => configWrites (k + 1) fold rest (fold ok s) go

/-- `wait_settle()` (43_read.md R183): no effect on the state of SEQ in a model without time (D21; DEDUCED, log
entry 12); the trace records where it stands. -/
def waitSettle (P : Params) (s : State) : State := { s with trace := s.trace ++ [.wait P.settle] }

/-- A register-level operation hands its status to whoever issued it (40_register_access.md R118). -/
def deliverStatus (ok : Bool) (s : State) : State := { s with delivered := s.delivered ++ [.status ok] }

/-- The reset input (70_reset_and_hazards.md R260): the reset values, with fresh draws for the unspecified registers.
No transaction is issued and the chip keeps what it had (R261). During a command, or with a transaction outstanding,
the run has no meaning (R262; log entry 13). -/
def takeReset (s : State) : Result :=
  if s.busy || s.req.isSome then .refused .resetDuringCommand
  else .next (State.ofReset (Config.atReset s.draws) s.bus s.inbox s.trace s.delivered (s.draws + 1))

end Sys2Proof.Machine
end

