-- ==== Sys2Proof/Machine/Init.lean ====
section
/-! DEFINITION. INIT (42_init.md). -/

namespace Sys2Proof.Machine

/-- INIT's stores at step 0 (42_init.md R162): the bus form of the address, and `RDY <- 0` (D7; log entry 18). -/
def beginInit (a7 : BitVec 7) (s : State) : State := { s with devaddr := busForm a7, rdy := false }

/-- `RDY <- 1` on an identity match (42_init.md R165). -/
def setReady (s : State) : State := { s with rdy := true }

/-- INIT with parameters `P`, whole (42_init.md R161). -/
def initCommand (P : Params) (a7 : BitVec 7) (s : State) : State :=
  regRead 1 2 regDevid 1 (beginInit a7 (accept (initWord a7) s)) fun ok s =>
    if ok && idMatch s.buf.b0 then
      configWrites 3 foldRdy (configSequence P) (setReady s) fun s => complete s.rdy 0 s
    else complete false 0 s

/-- The meaning of `INIT a7`. -/
def execInit (a7 : BitVec 7) (s : State) : Result := .next (initCommand params a7 s)

end Sys2Proof.Machine
end

