-- ==== Sys2Proof/Machine/Interrupts.lean ====
section
/-! DEFINITION. INT_QUERY, INT_ENABLE, INT_DISABLE and INT_HANDLE (45_interrupts.md). -/

namespace Sys2Proof.Machine

/-- INT_QUERY, whole (45_interrupts.md R201). -/
def intQueryCommand (s : State) : State :=
  ifReady (accept 0x4000 s) fun s =>
    regRead 1 2 regIntEnable 1 s fun ok s => complete (ok && anyEnabled s.buf.b0) 0 s

/-- The meaning of `INT_QUERY`. -/
def execIntQuery (s : State) : Result := .next (intQueryCommand s)

/-- `ACC <- 1` (45_interrupts.md R206). -/
def setAcc (s : State) : State := { s with acc := true }

/-- INT_ENABLE with parameters `P`, whole (45_interrupts.md R206; R208 and R212 for the flush after write
`P_FLUSH_POS`): the flush's outcome is ignored (D12; log entry 9). -/
def intEnableCommand (P : Params) (s : State) : State :=
  ifReady (accept 0x5000 s) fun s =>
    configWrites 1 foldAcc ((configSequence P).take P.flushPos.toNat) (setAcc s) fun s =>
      regRead (BitVec.ofNat 4 (P.flushPos.toNat + 1)) (BitVec.ofNat 4 (P.flushPos.toNat + 2)) regIntSource 1 s fun _ s =>
        configWrites (BitVec.ofNat 4 (P.flushPos.toNat + 3)) foldAcc ((configSequence P).drop P.flushPos.toNat) s fun s =>
          complete s.acc 0 s

/-- The meaning of `INT_ENABLE`. -/
def execIntEnable (s : State) : Result := .next (intEnableCommand params s)

/-- INT_DISABLE, whole (45_interrupts.md R216). -/
def intDisableCommand (s : State) : State :=
  ifReady (accept 0x6000 s) fun s =>
    regWrite 1 regIntEnable [0x00] s fun ok s => complete ok 0 s

/-- The meaning of `INT_DISABLE`. -/
def execIntDisable (s : State) : Result := .next (intDisableCommand s)

/-- INT_HANDLE, whole (45_interrupts.md R221). -/
def intHandleCommand (s : State) : State :=
  ifReady (accept 0x7000 s) fun s =>
    regRead 1 2 regIntSource 1 s fun ok s => complete false (if ok then decodeEvents s.buf.b0 else 0) s

/-- The meaning of `INT_HANDLE`. -/
def execIntHandle (s : State) : Result := .next (intHandleCommand s)

end Sys2Proof.Machine
end

