-- ==== Sys2Proof/Machine/Read.lean ====
section
/-! DEFINITION. READ (43_read.md). -/

namespace Sys2Proof.Machine

/-- The slots whose mask bit is set take the samples of `BUF`, all in one step (43_read.md R186). -/
def writeSlots (mask : BitVec 3) (s : State) : State :=
  { s with
    outX := if mask.getLsbD 0 then (unpackXyz s.buf).1 else s.outX
    outY := if mask.getLsbD 1 then (unpackXyz s.buf).2.1 else s.outY
    outZ := if mask.getLsbD 2 then (unpackXyz s.buf).2.2 else s.outZ }

/-- READ's burst, `RegRead(0x32, 6)` (40_register_access.md R115) at steps 3 and 4. A burst that fails in either phase
leaves `BUF` unspecified (43_read.md R185, R189 e; log entry 2): in its read phase as any failed read does, and in its
select here. -/
def readBurst (s : State) (go : Bool → State → State) : State :=
  regSelect 3 regData s fun ok s => if ok then busRead 4 6 s go else go false (scrambleBuf s)

/-- READ with parameters `P`, whole (43_read.md R181). -/
def readCommand (P : Params) (mask : BitVec 3) (s : State) : State :=
  ifReady (accept (readWord mask) s) fun s =>
    regWrite 1 regPowerCtl [P.measure] s fun ok s =>
      if ok then
        readBurst (waitSettle P s) fun ok s =>
          if ok then complete true 0 (writeSlots mask s) else complete false 0 s
      else complete false 0 s

/-- The meaning of `READ mask`. -/
def execRead (mask : BitVec 3) (s : State) : Result := .next (readCommand params mask s)

end Sys2Proof.Machine
end

