-- ==== Sys2Proof/Machine/RegisterOps.lean ====
section
/-! DEFINITION. The nine register-level operations (40_register_access.md R120 to R128), each a fixed use of
`RegWrite` or `RegRead`. They test no `RDY` and write no `RDY`, `ACC`, `OUT` or response (R118); on their own they
stand at no step of a command and leave `STEP` as it is (DESIGN CHOICE, log entry 5). -/

namespace Sys2Proof.Machine

/-- `RegWrite(r, [v])` on its own. It goes to DEVADDR as it stands; `step` runs it on a ready machine only, where an
INIT has written DEVADDR (log entry 24). -/
def writeOp (r v : Byte) (s : State) : State := regWrite s.stepNo r [v] s deliverStatus

/-- `RegRead(r, n)` on its own. It goes to DEVADDR as it stands; `step` runs it on a ready machine only, where an
INIT has written DEVADDR (log entry 24). -/
def readOp (r : Byte) (n : Nat) (s : State) : State := regRead s.stepNo s.stepNo r n s deliverStatus

/-- `WR_THRESH_ACT v` (40_register_access.md R120). -/
def execWrThreshAct (v : Byte) (s : State) : Result := .next (writeOp regThreshAct v s)

/-- `WR_ACT_INACT_CTL v` (R121). -/
def execWrActInactCtl (v : Byte) (s : State) : Result := .next (writeOp regActInactCtl v s)

/-- `WR_BW_RATE v` (R122). -/
def execWrBwRate (v : Byte) (s : State) : Result := .next (writeOp regBwRate v s)

/-- `WR_POWER_CTL v` (R123). -/
def execWrPowerCtl (v : Byte) (s : State) : Result := .next (writeOp regPowerCtl v s)

/-- `WR_INT_ENABLE v` (R124). -/
def execWrIntEnable (v : Byte) (s : State) : Result := .next (writeOp regIntEnable v s)

/-- `RD_DEVID` (R125). -/
def execRdDevid (s : State) : Result := .next (readOp regDevid 1 s)

/-- `RD_INT_ENABLE` (R126). -/
def execRdIntEnable (s : State) : Result := .next (readOp regIntEnable 1 s)

/-- `RD_INT_SOURCE` (R127). -/
def execRdIntSource (s : State) : Result := .next (readOp regIntSource 1 s)

/-- `RD_DATA` (R128). -/
def execRdData (s : State) : Result := .next (readOp regData 6 s)

/-- A register-level operation goes on from the transaction it waits at: a register write and a read phase end it, a
select is followed by its read phase (30_encoding.md R91). -/
def resumeRegisterOp (r : Request) (s : State) : Result :=
  match r with
  | .write _ [r, v] => .next (writeOp r v s)
  | .write _ [r] => .next (readOp r (readLength r) s)
  | .read _ n => .next (busRead s.stepNo n s deliverStatus)
  | .write _ _ => .fault .noSuchRequest

end Sys2Proof.Machine
end

