-- ==== Sys2Proof/Machine/Threshold.lean ====
section
/-! DEFINITION. SET_THRESH (44_threshold.md). -/

namespace Sys2Proof.Machine

/-- SET_THRESH, whole (44_threshold.md R196). -/
def setThreshCommand (t : Byte) (s : State) : State :=
  ifReady (accept (setThreshWord t) s) fun s =>
    regWrite 1 regThreshAct [t] s fun ok s => complete ok 0 s

/-- The meaning of `SET_THRESH t`. -/
def execSetThresh (t : Byte) (s : State) : Result := .next (setThreshCommand t s)

end Sys2Proof.Machine
end

