-- ==== Sys2Proof/Machine/Dispatch.lean ====
section
/-! DEFINITION. One arm per row of the opcode table. -/

namespace Sys2Proof.Machine

def exec (i : Instr) (s : State) : Host.Outcome State Fault Refusal :=
  match i with
  | .init a7 => Sys2Proof.Machine.execInit a7 s
  | .read mask => Sys2Proof.Machine.execRead mask s
  | .setThresh t => Sys2Proof.Machine.execSetThresh t s
  | .intQuery => Sys2Proof.Machine.execIntQuery s
  | .intEnable => Sys2Proof.Machine.execIntEnable s
  | .intDisable => Sys2Proof.Machine.execIntDisable s
  | .intHandle => Sys2Proof.Machine.execIntHandle s
  | .wrThreshAct v => Sys2Proof.Machine.execWrThreshAct v s
  | .wrActInactCtl v => Sys2Proof.Machine.execWrActInactCtl v s
  | .wrBwRate v => Sys2Proof.Machine.execWrBwRate v s
  | .wrPowerCtl v => Sys2Proof.Machine.execWrPowerCtl v s
  | .wrIntEnable v => Sys2Proof.Machine.execWrIntEnable v s
  | .rdDevid => Sys2Proof.Machine.execRdDevid s
  | .rdIntEnable => Sys2Proof.Machine.execRdIntEnable s
  | .rdIntSource => Sys2Proof.Machine.execRdIntSource s
  | .rdData => Sys2Proof.Machine.execRdData s

end Sys2Proof.Machine
end

