-- ==== Sys2Proof/Machine/StepTables.lean ====
section
/-! DEFINITION. The step tables (42_init.md R173, 43_read.md R187, 44_threshold.md R197, 45_interrupts.md R203, R212,
R218, R224): one row is one value of STEP with at most one transaction (10_state.md R26). The step of a command that
waits goes on from its table. That a whole run of a table is the command's big step (00_scope.md R14) is a statement
of its own. -/

namespace Sys2Proof.Machine

/-- The next step is `k`. -/
def goto (k : BitVec 4) (s : State) : State := { s with stepNo := k }

/-- A row that tests RDY at step 0 and goes on to step 1 (10_state.md R36). -/
def rowTestReady (s : State) : State := ifReady s (goto 1)

/-- A row with a configuration write at step `k`, its status folded, step `k+1` next. -/
def rowConfig (k : BitVec 4) (fold : Bool → State → State) (w : Byte × Byte) (s : State) : State :=
  busWrite k [w.1, w.2] s fun ok s => goto (k + 1) (fold ok s)

/-- A row with a write at step `k` whose failure ends the command. -/
def rowWriteOrStop (k : BitVec 4) (bytes : List Byte) (s : State) : State :=
  busWrite k bytes s fun ok s => if ok then goto (k + 1) s else complete false 0 s

/-- 42_init.md R173. -/
def tickInit (P : Params) (a7 : BitVec 7) (s : State) : Option State :=
  match s.stepNo.toNat with
  | 0 => some (goto 1 (beginInit a7 s))
  | 1 => some (rowWriteOrStop 1 [regDevid] s)
  | 2 => some (busRead 2 1 s fun ok s =>
      if ok && idMatch s.buf.b0 then goto 3 (setReady s) else complete false 0 s)
  | 3 => some (rowConfig 3 foldRdy (regIntEnable, 0x00) s)
  | 4 => some (rowConfig 4 foldRdy (regThreshAct, P.threshDefault) s)
  | 5 => some (rowConfig 5 foldRdy (regActInactCtl, P.actCtl) s)
  | 6 => some (rowConfig 6 foldRdy (regBwRate, P.bwRate) s)
  | 7 => some (rowConfig 7 foldRdy (regIntEnable, P.intAct) s)
  | 8 => some (rowConfig 8 foldRdy (regPowerCtl, P.measure) s)
  | 9 => some (complete s.rdy 0 s)
  | _ => none

/-- 43_read.md R187, its failed burst leaving `BUF` unspecified in either phase (R189 e). -/
def tickRead (P : Params) (mask : BitVec 3) (s : State) : Option State :=
  match s.stepNo.toNat with
  | 0 => some (rowTestReady s)
  | 1 => some (rowWriteOrStop 1 [regPowerCtl, P.measure] s)
  | 2 => some (goto 3 (waitSettle P s))
  | 3 => some (busWrite 3 [regData] s fun ok s => if ok then goto 4 s else complete false 0 (scrambleBuf s))
  | 4 => some (busRead 4 6 s fun ok s => if ok then goto 5 s else complete false 0 s)
  | 5 => some (complete true 0 (writeSlots mask s))
  | _ => none

/-- 44_threshold.md R197. -/
def tickSetThresh (t : Byte) (s : State) : Option State :=
  match s.stepNo.toNat with
  | 0 => some (rowTestReady s)
  | 1 => some (busWrite 1 [regThreshAct, t] s fun ok s => complete ok 0 s)
  | _ => none

/-- 45_interrupts.md R203. -/
def tickIntQuery (s : State) : Option State :=
  match s.stepNo.toNat with
  | 0 => some (rowTestReady s)
  | 1 => some (rowWriteOrStop 1 [regIntEnable] s)
  | 2 => some (busRead 2 1 s fun ok s => complete (ok && anyEnabled s.buf.b0) 0 s)
  | _ => none

/-- 45_interrupts.md R212, its flush after write `p` (R208): writes before the flush at steps 1 to `p`, the flush at
`p+1` and `p+2`, the writes after it at `p+3` to 8. A not-ready command writes no ACC (R206, which governs by
00_scope.md R14; DEDUCED, log entry 14). -/
def tickIntEnable (P : Params) (s : State) : Option State :=
  let p := P.flushPos.toNat
  let k := s.stepNo.toNat
  if k = 0 then some (ifReady s fun s => goto 1 (setAcc s))
  else if k = 9 then some (complete s.acc 0 s)
  else if k = p + 1 then some (busWrite s.stepNo [regIntSource] s fun ok s =>
    goto (BitVec.ofNat 4 (if ok then p + 2 else p + 3)) s)
  else if k = p + 2 then some (busRead s.stepNo 1 s fun _ s => goto (BitVec.ofNat 4 (p + 3)) s)
  else
    match (configSequence P)[if k ≤ p then k - 1 else k - 3]? with
    | some w => if k ≤ 8 then some (rowConfig s.stepNo foldAcc w s) else none
    | none => none

/-- 45_interrupts.md R218. -/
def tickIntDisable (s : State) : Option State :=
  match s.stepNo.toNat with
  | 0 => some (rowTestReady s)
  | 1 => some (busWrite 1 [regIntEnable, 0x00] s fun ok s => complete ok 0 s)
  | _ => none

/-- 45_interrupts.md R224. -/
def tickIntHandle (s : State) : Option State :=
  match s.stepNo.toNat with
  | 0 => some (rowTestReady s)
  | 1 => some (rowWriteOrStop 1 [regIntSource] s)
  | 2 => some (busRead 2 1 s fun ok s => complete false (if ok then decodeEvents s.buf.b0 else 0) s)
  | _ => none

/-- The row of command `i`'s table at STEP; none where the table has no such row. -/
def tickCommand (P : Params) (i : Instr) (s : State) : Option State :=
  match i with
  | .init a7 => tickInit P a7 s
  | .read mask => tickRead P mask s
  | .setThresh t => tickSetThresh t s
  | .intQuery => tickIntQuery s
  | .intEnable => tickIntEnable P s
  | .intDisable => tickIntDisable s
  | .intHandle => tickIntHandle s
  | .wrThreshAct _ | .wrActInactCtl _ | .wrBwRate _ | .wrPowerCtl _ | .wrIntEnable _ => none
  | .rdDevid | .rdIntEnable | .rdIntSource | .rdData => none

/-- The accepted command, from OP and ARG (10_state.md R25, R26). -/
def currentCommand (s : State) : Decoded := decodeCommand (s.op ++ s.arg)

/-- One step of the accepted command. -/
def tick (P : Params) (s : State) : Option State :=
  match currentCommand s with
  | .instr i => tickCommand P i s
  | .rejected _ => none

/-- At most `n` steps of the accepted command, until it completes or waits for an answer. -/
def runSteps (P : Params) : Nat → State → Result
  | 0, s => .next s
  | n + 1, s =>
    match tick P s with
    | none => .fault .noSuchStep
    | some t => if t.busy && t.req.isNone then runSteps P n t else .next t

/-- A command in progress goes on from the step it stands at. No table has more than ten steps (10_state.md R26). -/
def resumeCommand (s : State) : Result := runSteps params 10 s

/-- The transaction that command `i` presents at step `k` to the address in `dev`, where that step has one. -/
def rowRequest (P : Params) (i : Instr) (k : Nat) (dev : Byte) : Option Request :=
  match i with
  | .init _ =>
    match k with
    | 1 => some (.write dev [regDevid])
    | 2 => some (.read dev 1)
    | _ => if 3 ≤ k then (configSequence P)[k - 3]?.map fun w => .write dev [w.1, w.2] else none
  | .read _ =>
    match k with
    | 1 => some (.write dev [regPowerCtl, P.measure])
    | 3 => some (.write dev [regData])
    | 4 => some (.read dev 6)
    | _ => none
  | .setThresh t => if k = 1 then some (.write dev [regThreshAct, t]) else none
  | .intQuery =>
    match k with
    | 1 => some (.write dev [regIntEnable])
    | 2 => some (.read dev 1)
    | _ => none
  | .intEnable =>
    let p := P.flushPos.toNat
    if k = 0 then none
    else if k = p + 1 then some (.write dev [regIntSource])
    else if k = p + 2 then some (.read dev 1)
    else (configSequence P)[if k ≤ p then k - 1 else k - 3]?.map fun w => .write dev [w.1, w.2]
  | .intDisable => if k = 1 then some (.write dev [regIntEnable, 0x00]) else none
  | .intHandle =>
    match k with
    | 1 => some (.write dev [regIntSource])
    | 2 => some (.read dev 1)
    | _ => none
  | .wrThreshAct _ | .wrActInactCtl _ | .wrBwRate _ | .wrPowerCtl _ | .wrIntEnable _ => none
  | .rdDevid | .rdIntEnable | .rdIntSource | .rdData => none

end Sys2Proof.Machine
end

