-- ==== Sys2Proof/Machine/Fetch.lean ====
section
/-! DEFINITION. What a step finds to do. A reset at the head of what the outside presents comes first. Else a command
in progress goes on (10_state.md R34), else a register-level operation in progress, else the next input is taken, and
with nothing to do SEQ stays idle (70_reset_and_hazards.md R260). -/

namespace Sys2Proof.Machine

/-- What a step finds: an instruction to execute in a state, or an outcome. -/
inductive Fetched where
  | run (i : Instr) (s : State)
  | outcome (o : Result)

/-- The input at the head has been taken. -/
def takeInput (rest : List HostEvent) (s : State) : State := { s with inbox := rest }

/-- An encoding the decoder rejects. A reserved command word is accepted like any command, issues no transaction and
completes with the zero response (30_encoding.md R87, D13; DEDUCED, log entry 7). Register-level bytes outside 30_encoding.md R91 are
refused. -/
def rejectedEncoding (e : Encoding) (s : State) : Result :=
  match e with
  | .command w => .next (complete false 0 (accept w s))
  | .registerOp _ => .refused .unknownRegisterOp

/-- Whether an instruction presented to an idle machine is run. A command always is: its own step 0 tests RDY. A
register-level operation on its own is run on a ready machine only, since "no register operation may be attempted while
the readiness flag is false, except the identity read performed during `init` itself" (10_state.md R36); so none is sent
to DEVADDR's reset value (R37; DESIGN CHOICE, log entry 24). The operation itself tests no RDY (40_register_access.md
R118). -/
def admitted (e : Encoding) (s : State) : Bool :=
  match e with
  | .command _ => true
  | .registerOp _ => s.rdy

/-- The next input, taken by an idle machine. A register-level operation that is not admitted hands failure back, and no
transaction is issued (log entry 24). -/
def takeNext (e : HostEvent) (s : State) : Fetched :=
  match e with
  | .issue e =>
    match decode e with
    | .instr i => if admitted e s then .run i s else .outcome (.next (deliverStatus false s))
    | .rejected _ => .outcome (rejectedEncoding e s)
  | .reset => .outcome (takeReset s)
  | .chipActivity r v => .outcome (.next { s with bus := s.bus.activity r v })

/-- Whether the reset input stands at the head. -/
def resetPresented (s : State) : Bool :=
  match s.inbox with
  | .reset :: _ => true
  | _ => false

/-- What the next step does. -/
def fetch (s : State) : Fetched :=
  if resetPresented s then .outcome (takeReset (takeInput s.inbox.tail s))
  else if s.busy then .outcome (resumeCommand s)
  else
    match s.req with
    | some r => .outcome (resumeRegisterOp r s)
    | none =>
      match s.inbox with
      | [] => .outcome (.next s)
      | e :: rest => takeNext e (takeInput rest s)

/-- The state with encoding `e` presented first, to an idle machine, so that the next step takes it; to a ready one where
`e` is a register-level operation, which no other runs (log entry 24). -/
def present (e : Encoding) (s : State) : State :=
  match e with
  | .command _ => { s with inbox := .issue e :: s.inbox, busy := false, req := none }
  | .registerOp _ => { s with inbox := .issue e :: s.inbox, busy := false, req := none, rdy := true }

end Sys2Proof.Machine
end

