-- ==== Sys2Proof/Machine/Step.lean ====
section
/-! DEFINITION. One step: the machine takes what there is to do and runs it until it completes or waits for an answer
of the transport (DESIGN CHOICE, log entry 17). -/

namespace Sys2Proof.Machine

def step (s : State) : Host.Outcome State Fault Refusal :=
  match fetch s with
  | .run i t => exec i t
  | .outcome o => o

/-- `s` with the instruction of `nbits` bits `w` (numbered as the opcode table numbers them) presented where the next
step takes it. -/
def State.withFetchWord (s : State) (nbits w : Nat) : State := present (tableEncoding nbits w) s

end Sys2Proof.Machine
end

