-- ==== Sys2Proof/Machine/Assembler.lean ====
section
/-! DEFINITION. The assembler lines of 30_encoding.md R98 and the pseudo-instruction of R99. -/

namespace Sys2Proof.Machine

/-- A slot name in a `READ` line. -/
inductive Slot where
  | x | y | z
  deriving DecidableEq, Repr

/-- One line, its numbers as written. -/
inductive AsmLine where
  /-- `INIT <a7>`, or `INIT` with no operand. -/
  | init (a7 : Option Nat)
  /-- `READ <slots>`; the empty list is `READ -`. -/
  | read (slots : List Slot)
  /-- `SET_THRESH <t>` -/
  | setThresh (t : Nat)
  | intQuery
  | intEnable
  | intDisable
  | intHandle
  deriving DecidableEq, Repr

/-- The operand ranges of R98: `a7` in 0..0x7F, `t` in 0..0xFF. -/
def AsmLine.wf : AsmLine → Bool
  | .init (some a) => a ≤ 0x7F
  | .setThresh t => t ≤ 0xFF
  | .init none | .read _ | .intQuery | .intEnable | .intDisable | .intHandle => true

/-- The slot mask of a list of slots (30_encoding.md R80: bit 0 X, bit 1 Y, bit 2 Z). -/
def slotMask (slots : List Slot) : BitVec 3 :=
  BitVec.ofBool (slots.contains .z) ++ BitVec.ofBool (slots.contains .y) ++ BitVec.ofBool (slots.contains .x)

/-- The word of a line (30_encoding.md R98), `INIT` with no operand standing for `INIT P_DEFAULT_ADDR` (R99); none
where an operand is out of range. -/
def assemble (P : Params) (l : AsmLine) : Option CmdWord :=
  if AsmLine.wf l then
    match l with
    | .init (some a) => some (0x1000 ||| BitVec.ofNat 16 a)
    | .init none => some (0x1000 ||| P.defaultAddr.setWidth 16)
    | .read slots => some (0x2000 ||| ((slotMask slots).setWidth 16 <<< 8))
    | .setThresh t => some (0x3000 ||| BitVec.ofNat 16 t)
    | .intQuery => some 0x4000
    | .intEnable => some 0x5000
    | .intDisable => some 0x6000
    | .intHandle => some 0x7000
  else none

end Sys2Proof.Machine
end

