-- ==== Sys2Proof/Machine/Ports.lean ====
section
/-! DEFINITION. The ports of 10_state.md R38 as functions of the state, and the response packed as 30_encoding.md R97
packs it. -/

namespace Sys2Proof.Machine

/-- `cmd_ready = !BUSY` (10_state.md R38). While a register-level operation on its own waits, a state the spec does not
have, BUSY is 0 and this is true, yet no command is taken until the operation has ended (DESIGN CHOICE, log entry
26). -/
def cmdReady (s : State) : Bool := !s.busy

/-- `resp[3:0] = {RESP_EV[2:0], RESP_OK}` (30_encoding.md R97). -/
def respWord (s : State) : BitVec 4 := s.respEv ++ BitVec.ofBool s.respOk

/-- `out_x`, `out_y`, `out_z`: the output slot `OUT[i]` (10_state.md R20). -/
def outSlot (i : Fin 3) (s : State) : BitVec 16 :=
  match i with
  | 0 => s.outX
  | 1 => s.outY
  | 2 => s.outZ

/-- `bt_req_valid`: a transaction is presented and not answered. -/
def btReqValid (s : State) : Bool := s.req.isSome

/-- `bt_req_read`: 0 for a write, 1 for a read. -/
def Request.isRead : Request → Bool
  | .write _ _ => false
  | .read _ _ => true

/-- `bt_req_addr`. -/
def Request.addr : Request → Byte
  | .write a _ => a
  | .read a _ => a

/-- `bt_req_len`: the byte count. -/
def Request.len : Request → Nat
  | .write _ bytes => bytes.length
  | .read _ n => n

/-- `bt_req_wdata[15:8]`, the first byte of a write (D19), and `bt_req_wdata[7:0]`, the second; no value where the
write has no such byte. -/
def Request.wdata : Request → Option Byte × Option Byte
  | .write _ bytes => (bytes[0]?, bytes[1]?)
  | .read _ _ => (none, none)

/-- The answer at the pins: `bt_rsp_ok` and `bt_rsp_rdata`, the first byte received in `[7:0]`, the sixth in
`[47:40]` (D19). -/
def Answer.ofPins (ok : Bool) (rdata : BitVec 48) : Answer :=
  if ok then
    .success ⟨rdata.extractLsb' 0 8, rdata.extractLsb' 8 8, rdata.extractLsb' 16 8, rdata.extractLsb' 24 8,
      rdata.extractLsb' 32 8, rdata.extractLsb' 40 8⟩
  else .failure

/-- The same state with the transport's further answers appended: what the outside adds while SEQ waits
(10_state.md R38). -/
def withAnswers (more : List Answer) (s : State) : State := { s with bus := s.bus.extend more }

end Sys2Proof.Machine
end

