-- ==== Sys2Proof/Safety.lean ====
section
/-! DEFINITION. The terms claims use: idle and well-formed states, what a command may put on the bus, transports that
answer, and the result of a run. -/

namespace Sys2Proof.Machine

/-- Idle: no command in progress and nothing outstanding at the port, so that the next input is taken
(10_state.md R34, 20_memory.md R62). -/
def State.Idle (s : State) : Prop := s.busy = false ∧ s.req = none

/-- The seven commands (00_scope.md R2); the other rows are register-level operations. -/
def isCommand : Instr → Bool
  | .init _ | .read _ | .setThresh _ | .intQuery | .intEnable | .intDisable | .intHandle => true
  | .wrThreshAct _ | .wrActInactCtl _ | .wrBwRate _ | .wrPowerCtl _ | .wrIntEnable _ => false
  | .rdDevid | .rdIntEnable | .rdIntSource | .rdData => false

/-- The commands other than INIT, which test readiness (10_state.md R36). -/
def testsReady : Instr → Bool
  | .read _ | .setThresh _ | .intQuery | .intEnable | .intDisable | .intHandle => true
  | .init _ => false
  | .wrThreshAct _ | .wrActInactCtl _ | .wrBwRate _ | .wrPowerCtl _ | .wrIntEnable _ => false
  | .rdDevid | .rdIntEnable | .rdIntSource | .rdData => false

/-- The bytes of the write transactions an instruction may issue, selects among them (20_memory.md R53). -/
def allowedWrites (P : Params) : Instr → List (List Byte)
  | .init _ =>
    [[0x00], [0x2E, 0x00], [0x24, P.threshDefault], [0x27, P.actCtl], [0x2C, P.bwRate], [0x2E, P.intAct],
      [0x2D, P.measure]]
  | .read _ => [[0x2D, P.measure], [0x32]]
  | .setThresh t => [[0x24, t]]
  | .intQuery => [[0x2E]]
  | .intEnable =>
    [[0x2E, 0x00], [0x24, P.threshDefault], [0x27, P.actCtl], [0x2C, P.bwRate], [0x30], [0x2E, P.intAct],
      [0x2D, P.measure]]
  | .intDisable => [[0x2E, 0x00]]
  | .intHandle => [[0x30]]
  | .wrThreshAct v => [[0x24, v]]
  | .wrActInactCtl v => [[0x27, v]]
  | .wrBwRate v => [[0x2C, v]]
  | .wrPowerCtl v => [[0x2D, v]]
  | .wrIntEnable v => [[0x2E, v]]
  | .rdDevid => [[0x00]]
  | .rdIntEnable => [[0x2E]]
  | .rdIntSource => [[0x30]]
  | .rdData => [[0x32]]

/-- The byte counts of the read transactions an instruction may issue (20_memory.md R53). -/
def allowedReads : Instr → List Nat
  | .init _ | .intQuery | .intEnable | .intHandle => [1]
  | .read _ => [6]
  | .setThresh _ | .intDisable => []
  | .wrThreshAct _ | .wrActInactCtl _ | .wrBwRate _ | .wrPowerCtl _ | .wrIntEnable _ => []
  | .rdDevid | .rdIntEnable | .rdIntSource => [1]
  | .rdData => [6]

/-- An event instruction `i` may put into the trace with device address `dev` (20_memory.md R53, R61): a write or read
of R53 to `dev`, a successful read with all its bytes and a failed one with none (R57), and READ's wait. -/
def allowedEvent (P : Params) (i : Instr) (dev : Byte) : Event → Prop
  | .write a bytes _ => a = dev ∧ bytes ∈ allowedWrites P i
  | .read a n ok bytes => a = dev ∧ n ∈ allowedReads i ∧ bytes.length = if ok then n else 0
  | .wait d => (∃ mask, i = .read mask) ∧ d = P.settle

/-- Whether `r` is one of the transactions of 20_memory.md R53 that instruction `i` issues to device address `dev`. -/
def issues (P : Params) (i : Instr) (dev : Byte) : Request → Bool
  | .write a bytes => a == dev && (allowedWrites P i).contains bytes
  | .read a n => a == dev && (allowedReads i).contains n

/-- The three transaction forms SEQ issues (30_encoding.md R90). -/
def Request.form : Request → Bool
  | .write _ [_] => true
  | .write _ [_, _] => true
  | .write _ _ => false
  | .read _ n => n == 1 || n == 6

/-- The transport answers the next `n` transactions, whatever they are (70_reset_and_hazards.md R272: the premise
under which a command ends). -/
def Transport.Answers (n : Nat) (t : Transport) : Prop :=
  ∀ rs : List Request, rs.length ≤ n → (∀ r ∈ rs, r.form = true) → (t.replies rs).isSome = true

/-- A register-level operation that stands on its own may wait at transaction `r`. -/
def standsAlone (dev : Byte) : Request → Bool
  | .write a bytes => a == dev && Encoding.wf (.registerOp bytes)
  | .read a n => a == dev && (n == 1 || n == 6)

/-- Everything the outside presents but a register-level operation on its own, which only the model has (log
entry 5). -/
def HostEvent.onHardware : HostEvent → Bool
  | .issue (.command _) | .reset | .chipActivity _ _ => true
  | .issue (.registerOp _) => false

/-- The command-only states, those of the hardware itself: no register-level operation is presented on its own and
none is in progress, so that every transaction belongs to a step of a command (60_exceptions.md R241) and SEQ's state
changes only by the steps of an accepted command (R237). -/
def State.CommandOnly (s : State) : Prop :=
  s.inbox.all HostEvent.onHardware = true ∧ (s.busy = false → s.req = none)

/-- The machine's invariant. The chip register space keeps its canonical form. With RDY or BUSY set DEVADDR is a bus
form (10_state.md R21). Idle, STEP is 0 (R29), and what is outstanding is a register-level operation's transaction, of
a machine that is ready (R36).
Busy, OP and ARG name a command and the transaction outstanding is the one its table has at STEP (R26, R38), and a
command other than INIT has found RDY set (R36). -/
structure State.Inv (s : State) : Prop where
  bus_wf : s.bus.wf = true
  devaddr_even : s.rdy = true ∨ s.busy = true → s.devaddr.getLsbD 0 = false
  idle_step : s.busy = false → s.stepNo = 0
  idle_req : s.busy = false → ∀ r, s.req = some r → standsAlone s.devaddr r = true
  idle_req_ready : s.busy = false → s.req.isSome = true → s.rdy = true
  busy_row : s.busy = true → ∃ i r, currentCommand s = .instr i ∧ s.req = some r
    ∧ rowRequest params i s.stepNo.toNat s.devaddr = some r
  busy_ready : s.busy = true → ∀ i, currentCommand s = .instr i → testsReady i = true → s.rdy = true

/-- The instruction the next step runs: the command in progress, or the admitted instruction an idle machine takes. -/
def running (s : State) : Option Instr :=
  if resetPresented s then none
  else if s.busy then
    match currentCommand s with
    | .instr i => some i
    | .rejected _ => none
  else
    match s.req, s.inbox with
    | none, .issue e :: _ =>
      match decode e with
      | .instr i => if admitted e s then some i else none
      | .rejected _ => none
    | _, _ => none

/-- The machine does not stop with a fault. -/
def NoFault (o : Result) : Prop := ∀ f, o ≠ .fault f

/-- The result of a run (70_reset_and_hazards.md R278): what was handed back, DEVADDR, RDY, the slots and the trace. -/
structure RunResult where
  delivered : List Delivery
  devaddr : Byte
  rdy : Bool
  outX : BitVec 16
  outY : BitVec 16
  outZ : BitVec 16
  trace : List Event
  deriving DecidableEq, Repr

/-- The result of the run that ends in `s`. -/
def State.result (s : State) : RunResult := ⟨s.delivered, s.devaddr, s.rdy, s.outX, s.outY, s.outZ, s.trace⟩

/-- The run has ended: nothing more is presented, nothing is in progress (70_reset_and_hazards.md R278). -/
def State.Ended (s : State) : Prop := s.Idle ∧ s.inbox = []

end Sys2Proof.Machine
end

