-- ==== Sys2Proof/Certificates/Slice0/Obligations.lean ====
section
/-! DEFINITION. The statements for the provers, from the numbered rules of spec/. `exec` is the big step of a command
(00_scope.md R14); a statement about an answered transaction holds for every transport, the reference chip among
them. -/

open Sys2Proof Sys2Proof.Machine

/-! ## Decoding -/

/-- Words written out from the encodings of 30_encoding.md R98 and R91, and reserved words of 95_test_vectors.md 2.1. -/
def Obligations.SpecWordsDecode : Prop :=
  decode (.command 0x1053) = .instr (.init 0x53) ∧ decode (.command 0x2700) = .instr (.read 0b111)
    ∧ decode (.command 0x2200) = .instr (.read 0b010) ∧ decode (.command 0x30FF) = .instr (.setThresh 0xFF)
    ∧ decode (.command 0x5000) = .instr .intEnable ∧ decode (.command 0x1080) = .rejected .reservedWord
    ∧ decode (.command 0x7800) = .rejected .reservedWord
    ∧ decode (.registerOp [0x24, 0x20]) = .instr (.wrThreshAct 0x20)
    ∧ decode (.registerOp [0x2E, 0x00]) = .instr (.wrIntEnable 0x00)
    ∧ decode (.registerOp [0x2E]) = .instr .rdIntEnable ∧ decode (.registerOp [0x32]) = .instr .rdData

/-- Decode and encode agree: every well-formed instruction is decoded from its own encoding, with every operand at
every value (30_encoding.md R82, R91). -/
def Obligations.DecodeOfEncode : Prop := ∀ i : Instr, Instr.wf i = true → decode (encode i) = .instr i

/-- Each encoding has one meaning: what decodes to `i` is the encoding of `i` (30_encoding.md R81, R91). -/
def Obligations.EncodeOfDecode : Prop := ∀ (e : Encoding) (i : Instr), decode e = .instr i → encode i = e

/-- 30_encoding.md R81 and R82: a word spells the command of a row iff `w & mask == match`, with the operand fields of
that row, and a word of no row is RESERVED. -/
def Obligations.DecodingFollowsTheTable : Prop :=
  ∀ w : CmdWord,
    (w &&& 0xFF80 = 0x1000 → decodeCommand w = .instr (.init (w.extractLsb' 0 7)))
    ∧ (w &&& 0xF8FF = 0x2000 → decodeCommand w = .instr (.read (w.extractLsb' 8 3)))
    ∧ (w &&& 0xFF00 = 0x3000 → decodeCommand w = .instr (.setThresh (w.extractLsb' 0 8)))
    ∧ (w &&& 0xFFFF = 0x4000 → decodeCommand w = .instr .intQuery)
    ∧ (w &&& 0xFFFF = 0x5000 → decodeCommand w = .instr .intEnable)
    ∧ (w &&& 0xFFFF = 0x6000 → decodeCommand w = .instr .intDisable)
    ∧ (w &&& 0xFFFF = 0x7000 → decodeCommand w = .instr .intHandle)
    ∧ (w &&& 0xFF80 ≠ 0x1000 → w &&& 0xF8FF ≠ 0x2000 → w &&& 0xFF00 ≠ 0x3000 → w &&& 0xFFFF ≠ 0x4000 →
        w &&& 0xFFFF ≠ 0x5000 → w &&& 0xFFFF ≠ 0x6000 → w &&& 0xFFFF ≠ 0x7000 →
        decodeCommand w = .rejected .reservedWord)

/-- "The rows are disjoint" (30_encoding.md R81): no word spells the commands of two rows. -/
def Obligations.CommandRowsDisjoint : Prop :=
  cmdRows.Pairwise fun a b => ∀ w : CmdWord, ¬(a.spells w = true ∧ b.spells w = true)

/-- The words the decoder rejects are the ones 30_encoding.md R87 lists. -/
def Obligations.ReservedWordsAreTheListed : Prop :=
  ∀ w : CmdWord, decodeCommand w = .rejected .reservedWord ↔ CmdWord.reserved w = true

/-! ## The step -/

/-- A step of an idle machine runs the instruction it takes: it is `exec` of the decoded instruction on the state
with that input taken, for every command word, and for every register-level operation on a ready machine. A
register-level operation on its own that finds the machine not ready hands failure back without a transaction (DESIGN
CHOICE, log entry 24, from 10_state.md R36). -/
def Obligations.StepRunsDecodedInstruction : Prop :=
  (∀ (s : State) (w : CmdWord) (rest : List HostEvent) (i : Instr),
    s.Idle → s.inbox = .issue (.command w) :: rest → decodeCommand w = .instr i → Instr.wf i = true →
    step s = exec i { s with inbox := rest })
  ∧ ∀ (s : State) (bytes : List Byte) (rest : List HostEvent) (i : Instr),
    s.Idle → s.inbox = .issue (.registerOp bytes) :: rest → decodeRegisterOp bytes = .instr i → Instr.wf i = true →
    (s.rdy = true → step s = exec i { s with inbox := rest })
      ∧ (s.rdy = false → step s = .next { s with inbox := rest, delivered := s.delivered ++ [.status false] })

/-- A reserved command word is accepted like any command, issues no transaction and completes with the zero response
(30_encoding.md R87, the spec's decision D13; log entry 7). -/
def Obligations.ReservedWordCompletes : Prop :=
  ∀ (s : State) (w : CmdWord) (rest : List HostEvent),
    s.Idle → s.inbox = .issue (.command w) :: rest → CmdWord.reserved w = true →
    step s = .next { s with
      inbox := rest, op := w.extractLsb' 12 4, arg := w.extractLsb' 0 12, busy := false, stepNo := 0, respOk := false,
      respEv := 0, delivered := s.delivered ++ [.response false 0] }

/-- Waiting changes nothing (40_register_access.md R112): while the transport has not answered, a step leaves the state
as it is, of a busy machine and of one that waits in a register-level operation on its own (DESIGN CHOICE, log entry
5). -/
def Obligations.WaitingChangesNothing : Prop :=
  (∀ (s : State) (i : Instr) (r : Request),
    resetPresented s = false → s.busy = true → currentCommand s = .instr i → s.req = some r →
    rowRequest params i s.stepNo.toNat s.devaddr = some r → s.bus.respond r = none → step s = .next s)
  ∧ ∀ (s : State) (r : Request),
    resetPresented s = false → s.busy = false → s.req = some r → standsAlone s.devaddr r = true →
    s.bus.respond r = none → step s = .next s

/-- A ready command whose first transaction is not answered waits at its step 1 with that transaction presented, and
INIT does so whether ready or not (40_register_access.md R112, 10_state.md R26); that INIT has by then cleared RDY on a
ready machine too is the spec's decision D7 (log entry 18). A register-level operation on its own (DESIGN CHOICE, log
entry 5) waits with its write or select presented, a read also with its read phase presented, and nothing else
changed. -/
def Obligations.CommandsWaitForTheFirstAnswer : Prop :=
  (∀ (i : Instr) (w : CmdWord) (s : State) (r : Request),
    testsReady i = true → encode i = .command w → s.rdy = true → rowRequest params i 1 s.devaddr = some r →
    s.bus.respond r = none →
    ∃ t, exec i s = .next t ∧ t.busy = true ∧ t.stepNo = 1 ∧ t.req = some r ∧ t.trace = s.trace
      ∧ t.delivered = s.delivered ∧ currentCommand t = .instr i)
  ∧ (∀ (a7 : BitVec 7) (s : State), s.bus.respond (.write (busForm a7) [0x00]) = none →
    ∃ t, exec (.init a7) s = .next t ∧ t.busy = true ∧ t.stepNo = 1 ∧ t.req = some (.write (busForm a7) [0x00])
      ∧ t.trace = s.trace ∧ t.delivered = s.delivered ∧ currentCommand t = .instr (.init a7) ∧ t.rdy = false
      ∧ t.devaddr = busForm a7)
  ∧ (∀ (i : Instr) (bytes : List Byte) (s : State), encode i = .registerOp bytes →
    s.bus.respond (.write s.devaddr bytes) = none →
    exec i s = .next { s with req := some (.write s.devaddr bytes) })
  ∧ ∀ (i : Instr) (r : Byte) (n : Nat) (s : State) (d : Bytes6) (b : Transport),
    encode i = .registerOp [r] → n ∈ allowedReads i → s.bus.respond (.write s.devaddr [r]) = some (.success d, b) →
    b.respond (.read s.devaddr n) = none →
    exec i s = .next { s with
      req := some (.read s.devaddr n), bus := b, trace := s.trace ++ [.write s.devaddr [r] true] }

/-! ## Reset and the invariant -/

/-- After reset the machine is idle and not ready, its response is zero, and no transaction has been issued
(70_reset_and_hazards.md R260, 95_test_vectors.md V-RST-1). -/
def Obligations.ResetState : Prop :=
  State.reset.rdy = false ∧ State.reset.busy = false ∧ State.reset.stepNo = 0 ∧ State.reset.respOk = false
    ∧ State.reset.respEv = 0 ∧ State.reset.req = none ∧ State.reset.trace = [] ∧ State.reset.delivered = []

/-- The reset input on an idle machine gives the reset values of 70_reset_and_hazards.md R260; it issues no transaction
and leaves the chip as it was (R261).
That the reset input is taken between commands, at the head of the inputs, is DESIGN CHOICE (log entry 13). -/
def Obligations.ResetInputResets : Prop :=
  ∀ (s : State) (rest : List HostEvent), s.Idle → s.inbox = .reset :: rest →
    ∃ t, step s = .next t ∧ t.rdy = false ∧ t.busy = false ∧ t.stepNo = 0 ∧ t.respOk = false ∧ t.respEv = 0
      ∧ t.req = none ∧ t.bus = s.bus ∧ t.trace = s.trace ∧ t.delivered = s.delivered ∧ t.inbox = rest

/-- A reset during a command has no meaning (70_reset_and_hazards.md R262). -/
def Obligations.ResetDuringCommandRefused : Prop :=
  ∀ (s : State) (rest : List HostEvent), s.busy = true → s.inbox = .reset :: rest →
    step s = .refused .resetDuringCommand

/-- The invariant holds after reset, and the state after reset is a command-only one. -/
def Obligations.InvAfterReset : Prop := State.reset.Inv ∧ State.reset.CommandOnly

/-- Every step keeps the invariant: the chip register space in its canonical form, DEVADDR a bus form once RDY or BUSY
is set (10_state.md R21), STEP zero when idle (R29), a busy machine waiting at a transaction of its command's table
(R26, R38), and RDY set while a command other than INIT is in progress (R36) or a register-level operation on its own
waits (log entry 24). -/
def Obligations.StepKeepsInv : Prop := ∀ s t : State, s.Inv → step s = .next t → t.Inv

/-- SEQ raises nothing (60_exceptions.md R230): from a state of the invariant no step faults. -/
def Obligations.NoStepFaults : Prop := ∀ s : State, s.Inv → NoFault (step s)

/-- "Only READ writes a slot" (10_state.md R20), over every step that is no reset. -/
def Obligations.SlotsChangeOnlyByRead : Prop :=
  ∀ s t : State, resetPresented s = false → step s = .next t → (∀ mask, running s ≠ some (.read mask)) →
    t.outX = s.outX ∧ t.outY = s.outY ∧ t.outZ = s.outZ

/-- No command other than INIT changes RDY (10_state.md R23) or DEVADDR (R21), over every step that is no reset. -/
def Obligations.RdyAndDevaddrChangeOnlyByInit : Prop :=
  ∀ s t : State, resetPresented s = false → step s = .next t → (∀ a7, running s ≠ some (.init a7)) →
    t.rdy = s.rdy ∧ t.devaddr = s.devaddr

/-- No command other than INT_ENABLE writes ACC (10_state.md R27), over every step that is no reset. -/
def Obligations.AccChangesOnlyByIntEnable : Prop :=
  ∀ s t : State, resetPresented s = false → step s = .next t → running s ≠ some .intEnable → t.acc = s.acc

/-- The response registers change only with a response presented: a step that hands no response back leaves RESP_OK and
RESP_EV as they were (10_state.md R29), over every step that is no reset.
The `status` that may be handed back instead is that of a register-level operation on its own (DESIGN CHOICE, log entry
5). -/
def Obligations.ResponseHeldUntilComplete : Prop :=
  ∀ s t : State, resetPresented s = false → step s = .next t →
    (t.respOk = s.respOk ∧ t.respEv = s.respEv
        ∧ (t.delivered = s.delivered ∨ ∃ ok, t.delivered = s.delivered ++ [.status ok]))
      ∨ (t.delivered = s.delivered ++ [.response t.respOk t.respEv] ∧ t.busy = false ∧ t.stepNo = 0)

/-! ## Commands and readiness -/

/-- A command other than INIT on a machine that is not ready: no transaction, the zero response, nothing else changed
but what acceptance writes (10_state.md R36, 43_read.md R182, 60_exceptions.md R232). That INT_ENABLE leaves ACC as it
was is DEDUCED (log entry 14): its big step (45_interrupts.md R206) governs over step 0 of its table (R212). -/
def Obligations.NotReadyCommandsDoNothing : Prop :=
  ∀ (i : Instr) (w : CmdWord) (s : State), testsReady i = true → encode i = .command w → s.rdy = false →
    exec i s = .next { s with
      op := w.extractLsb' 12 4, arg := w.extractLsb' 0 12, busy := false, stepNo := 0, req := none, respOk := false,
      respEv := 0, delivered := s.delivered ++ [.response false 0] }

/-- A completed command's response: INIT answers RDY; the part a command does not produce is zero (30_encoding.md R97,
42_init.md R169). -/
def Obligations.ResponseParts : Prop :=
  ∀ (i : Instr) (s t : State), isCommand i = true → exec i s = .next t → t.busy = false →
    (i = .intHandle → t.respOk = false) ∧ (i ≠ .intHandle → t.respEv = 0)
      ∧ ∀ a7, i = .init a7 → t.respOk = t.rdy

/-- Every command ends: from any state, if the transport answers the next eight transactions, the command completes in
that step and the machine is idle (70_reset_and_hazards.md R272, 10_state.md R26). -/
def Obligations.CommandsEndWhenAnswered : Prop :=
  ∀ (i : Instr) (s : State), isCommand i = true → s.bus.Answers 8 →
    ∃ t, exec i s = .next t ∧ t.Idle ∧ t.stepNo = 0 ∧ t.delivered = s.delivered ++ [.response t.respOk t.respEv]

/-- A command in progress ends too: in a state of the invariant, if the transport answers, the next step completes the
command (70_reset_and_hazards.md R272). -/
def Obligations.WaitingCommandEndsWhenAnswered : Prop :=
  ∀ s : State, s.Inv → s.busy = true → resetPresented s = false → s.bus.Answers 8 →
    ∃ t, step s = .next t ∧ t.Idle ∧ t.stepNo = 0 ∧ t.delivered = s.delivered ++ [.response t.respOk t.respEv]

/-- A run that waited is the whole run: where an instruction run from an idle state waits, the step that goes on with
further answers gives what the instruction gives from the same start with those answers already there
(40_register_access.md R112, 10_state.md R26). Register-level operations on their own are among the instructions
(DESIGN CHOICE, log entry 5). -/
def Obligations.ResumedRunIsTheWholeRun : Prop :=
  ∀ (i : Instr) (s t : State) (more : List Answer), s.Idle → resetPresented s = false → exec i s = .next t →
    t.busy = true ∨ t.req.isSome = true → step (withAnswers more t) = exec i (withAnswers more s)

/-- A command is accepted only when BUSY is 0 (10_state.md R34), and OP and ARG are constant while BUSY is 1 (R25): a step
of a busy machine takes no input and leaves OP and ARG as they are, the step that ends the command too. -/
def Obligations.BusyMachineAcceptsNothing : Prop :=
  ∀ s t : State, s.busy = true → resetPresented s = false → step s = .next t →
    t.inbox = s.inbox ∧ t.op = s.op ∧ t.arg = s.arg

/-- A command's big step is the run of its step table from acceptance, to completion or to the step it waits at
(00_scope.md R14). In step 0 of a not-ready INT_ENABLE the model's table leaves ACC as it was, where 45_interrupts.md R212
sets it (DEDUCED, log entry 14). -/
def Obligations.BigStepIsTheStepTable : Prop :=
  ∀ (i : Instr) (w : CmdWord) (s : State), isCommand i = true → encode i = .command w →
    exec i s = runSteps params 10 (accept w s)

/-- INT_ENABLE's big step is its step table for every `P_FLUSH_POS` and every other parameter (45_interrupts.md R208,
R212). The table is R212's but for a machine that is not ready: there the model's step 0 leaves ACC as it was, where
R212 sets it (DEDUCED, log entry 14: the big step of R206 governs by 00_scope.md R14). -/
def Obligations.IntEnableTableForEveryFlushPos : Prop :=
  ∀ (P : Params) (s : State), .next (intEnableCommand P s) = runSteps P 10 (accept 0x5000 s)

/-- What an instruction puts on the bus: the step that runs instruction `i` only adds to the trace, and each event it
adds is a transaction 20_memory.md R53 gives `i`, to DEVADDR (R61), atomic (R57), or READ's wait. The same of the step
that goes on from the transaction at which a register-level operation on its own waits (DESIGN CHOICE, log entry 5). -/
def Obligations.OnlyListedTransactions : Prop :=
  (∀ (s t : State) (i : Instr), s.Inv → running s = some i → step s = .next t →
    ∃ events, t.trace = s.trace ++ events ∧ ∀ e ∈ events, allowedEvent params i t.devaddr e)
  ∧ ∀ (s t : State) (i : Instr) (r : Request),
    resetPresented s = false → s.busy = false → s.req = some r → isCommand i = false →
    issues params i s.devaddr r = true → step s = .next t →
    ∃ events, t.trace = s.trace ++ events ∧ ∀ e ∈ events, allowedEvent params i t.devaddr e

/-- In a command-only state every transaction belongs to a step of a command (60_exceptions.md R241), and SEQ's state
changes only by the steps of an accepted command (R237): a step runs a command, which addresses what it issues with bit
0 clear (20_memory.md R61, so that no reset value of DEVADDR is sent, 10_state.md R37), or accepts a reserved word
without a transaction, or takes a reset without one, or changes nothing of SEQ: it takes the chip's own activity or
nothing. The next state is again command-only. -/
def Obligations.TransactionsBelongToCommands : Prop :=
  ∀ s t : State, s.Inv → s.CommandOnly → step s = .next t →
    t.CommandOnly
    ∧ ((∃ i, running s = some i ∧ isCommand i = true
          ∧ (t.trace ≠ s.trace ∨ t.req.isSome = true → t.devaddr.getLsbD 0 = false))
      ∨ (∃ w rest, s.Idle ∧ s.inbox = .issue (.command w) :: rest ∧ CmdWord.reserved w = true
          ∧ t.trace = s.trace ∧ t.req = none ∧ t.bus = s.bus)
      ∨ (resetPresented s = true ∧ t.trace = s.trace ∧ t.req = none ∧ t.bus = s.bus)
      ∨ t = { s with inbox := s.inbox.tail, bus := t.bus })

/-- The registers without a reset value are not read before they are written: whatever they hold in an idle machine
that is not ready, a command word has the same transactions, response and readiness (10_state.md R37,
93_implementation_defined.md U10). In a ready machine an INIT has written DEVADDR, and the same holds of the others. And
no step sends DEVADDR's reset value: a transaction is issued or awaited only by INIT or by a machine with RDY set, and
only with bit 0 of DEVADDR clear (R37, 20_memory.md R61).
That a register-level operation on its own is run on a ready machine only is DESIGN CHOICE (log entry 24). -/
def Obligations.UnspecifiedRegistersUnread : Prop :=
  (∀ (s : State) (u : Config.Unspecified) (w : CmdWord) (rest : List HostEvent),
    s.Idle → s.rdy = false → s.inbox = .issue (.command w) :: rest →
    ∃ t t', step s = .next t
      ∧ step { s with
          outX := u.outX, outY := u.outY, outZ := u.outZ, devaddr := u.devaddr, op := u.op, arg := u.arg, acc := u.acc,
          buf := u.buf } = .next t'
      ∧ t'.trace = t.trace ∧ t'.delivered = t.delivered ∧ t'.respOk = t.respOk ∧ t'.respEv = t.respEv
      ∧ t'.rdy = t.rdy ∧ t'.busy = t.busy ∧ t'.stepNo = t.stepNo ∧ t'.req = t.req ∧ t'.bus = t.bus
      ∧ t'.op = t.op ∧ t'.arg = t.arg)
  ∧ (∀ (s : State) (u : Config.Unspecified) (w : CmdWord) (rest : List HostEvent),
    s.Idle → s.rdy = true → s.inbox = .issue (.command w) :: rest →
    ∃ t t', step s = .next t
      ∧ step { s with
          outX := u.outX, outY := u.outY, outZ := u.outZ, op := u.op, arg := u.arg, acc := u.acc
          buf := u.buf } = .next t'
      ∧ t'.trace = t.trace ∧ t'.delivered = t.delivered ∧ t'.respOk = t.respOk ∧ t'.respEv = t.respEv
      ∧ t'.rdy = t.rdy ∧ t'.busy = t.busy ∧ t'.stepNo = t.stepNo ∧ t'.req = t.req ∧ t'.bus = t.bus
      ∧ t'.op = t.op ∧ t'.arg = t.arg ∧ t'.devaddr = t.devaddr)
  ∧ ∀ s t : State, s.Inv → step s = .next t → t.trace ≠ s.trace ∨ t.req.isSome = true →
    ((∃ a7, running s = some (.init a7)) ∨ s.rdy = true) ∧ t.devaddr.getLsbD 0 = false

/-! ## INIT -/

/-- The bus form of an address is twice the address with bit 0 clear (30_encoding.md R83, 41_decoders.md R145). -/
def Obligations.BusFormIsTwiceTheAddress : Prop :=
  ∀ a7 : BitVec 7, (busForm a7).toNat = 2 * a7.toNat ∧ (busForm a7).getLsbD 0 = false

/-- The identity read succeeds and the byte is `0xE5`: exactly the six configuration writes follow in order, each
attempted whatever the others' statuses `w1` to `w6`, and INIT answers RDY, their AND (42_init.md R161, R166 to
R169). -/
def Obligations.InitWithIdentityMatched : Prop :=
  ∀ (a7 : BitVec 7) (A : Byte) (s : State) (d0 d1 : Bytes6) (w1 w2 w3 w4 w5 w6 : Answer) (t : Transport),
    A = busForm a7 →
    s.bus.replies
      [.write A [0x00], .read A 1, .write A [0x2E, 0x00], .write A [0x24, params.threshDefault],
        .write A [0x27, params.actCtl], .write A [0x2C, params.bwRate], .write A [0x2E, params.intAct],
        .write A [0x2D, params.measure]]
      = some ([.success d0, .success d1, w1, w2, w3, w4, w5, w6], t) →
    d1.b0 = 0xE5 →
    exec (.init a7) s = .next { s with
      devaddr := A
      rdy := w1.ok && w2.ok && w3.ok && w4.ok && w5.ok && w6.ok
      busy := false, op := 1, arg := a7.setWidth 12, stepNo := 0
      buf := { s.buf with b0 := d1.b0 }
      respOk := w1.ok && w2.ok && w3.ok && w4.ok && w5.ok && w6.ok
      respEv := 0, req := none, bus := t
      trace := s.trace ++
        [.write A [0x00] true, .read A 1 true [0xE5], .write A [0x2E, 0x00] w1.ok,
          .write A [0x24, params.threshDefault] w2.ok, .write A [0x27, params.actCtl] w3.ok,
          .write A [0x2C, params.bwRate] w4.ok, .write A [0x2E, params.intAct] w5.ok,
          .write A [0x2D, params.measure] w6.ok]
      delivered := s.delivered ++ [.response (w1.ok && w2.ok && w3.ok && w4.ok && w5.ok && w6.ok) 0] }

/-- The identity read fails in either phase, or the byte is not `0xE5`: RDY is 0, INIT answers failure and no write
follows (42_init.md R164). That no read follows a failed select is the spec's decision D10 (log entry 8), that RDY
is 0 after it on a machine that was ready its decision D7 (log entry 18), and what BUF holds after a failed read is a
free value (log entry 2).
That BUF is as it was after a failed select is DEDUCED from 40_register_access.md R110 and 10_state.md R28 (log entry
25). -/
def Obligations.InitWithIdentityRefused : Prop :=
  (∀ (a7 : BitVec 7) (A : Byte) (s : State) (t : Transport), A = busForm a7 →
    s.bus.respond (.write A [0x00]) = some (.failure, t) →
    exec (.init a7) s = .next { s with
      devaddr := A, rdy := false, busy := false, op := 1, arg := a7.setWidth 12, stepNo := 0, respOk := false,
      respEv := 0, req := none, bus := t, trace := s.trace ++ [.write A [0x00] false]
      delivered := s.delivered ++ [.response false 0] })
  ∧ (∀ (a7 : BitVec 7) (A : Byte) (s : State) (d : Bytes6) (t : Transport), A = busForm a7 →
    s.bus.replies [.write A [0x00], .read A 1] = some ([.success d, .failure], t) →
    exec (.init a7) s = .next { s with
      devaddr := A, rdy := false, busy := false, op := 1, arg := a7.setWidth 12, stepNo := 0
      buf := Config.failedRead s.draws, draws := s.draws + 1, respOk := false, respEv := 0, req := none, bus := t
      trace := s.trace ++ [.write A [0x00] true, .read A 1 false []]
      delivered := s.delivered ++ [.response false 0] })
  ∧ ∀ (a7 : BitVec 7) (A : Byte) (s : State) (d0 d : Bytes6) (t : Transport), A = busForm a7 →
    s.bus.replies [.write A [0x00], .read A 1] = some ([.success d0, .success d], t) → d.b0 ≠ 0xE5 →
    exec (.init a7) s = .next { s with
      devaddr := A, rdy := false, busy := false, op := 1, arg := a7.setWidth 12, stepNo := 0
      buf := { s.buf with b0 := d.b0 }, respOk := false, respEv := 0, req := none, bus := t
      trace := s.trace ++ [.write A [0x00] true, .read A 1 true [d.b0]]
      delivered := s.delivered ++ [.response false 0] }

/-- INIT's frame: DEVADDR is the bus form of the operand whether or not INIT succeeds (42_init.md R162); the slots, ACC,
the inputs, BUF[1..5] unless a read failed, and every chip register but the five configuration registers are unchanged
(10_state.md R35, 40_register_access.md R111).
That BUF is as it was after a failed select, too, is DEDUCED from 40_register_access.md R110 and 10_state.md R28 (log entry
25). -/
def Obligations.InitFrame : Prop :=
  ∀ (a7 : BitVec 7) (s t : State), s.bus.wf = true → exec (.init a7) s = .next t →
    t.devaddr = busForm a7 ∧ t.outX = s.outX ∧ t.outY = s.outY ∧ t.outZ = s.outZ ∧ t.acc = s.acc
      ∧ t.inbox = s.inbox ∧ (t.draws = s.draws → t.buf = { s.buf with b0 := t.buf.b0 })
      ∧ ∀ x : Byte, x ∉ [0x24, 0x27, 0x2C, 0x2D, 0x2E] → t.bus.reg x = s.bus.reg x

/-! ## READ -/

/-- `sample16(lo, hi)` is `u = hi * 256 + lo` where `u < 32768`, else `u - 65536` (41_decoders.md R144). -/
def Obligations.SampleIsTwosComplement : Prop :=
  ∀ lo hi : Byte,
    (sample16 lo hi).toInt
      = if hi.toNat * 256 + lo.toNat < 32768 then ((hi.toNat * 256 + lo.toNat : Nat) : Int)
        else ((hi.toNat * 256 + lo.toNat : Nat) : Int) - 65536

/-- READ with every transaction answered with success: exactly the slots whose mask bit is set take the three
little-endian samples of the burst, all from the same six bytes (43_read.md R181, R186). -/
def Obligations.ReadWritesTheMaskedSlots : Prop :=
  ∀ (mask : BitVec 3) (s : State) (d0 d1 d : Bytes6) (t : Transport), s.rdy = true →
    s.bus.replies
      [.write s.devaddr [0x2D, params.measure], .write s.devaddr [0x32], .read s.devaddr 6]
      = some ([.success d0, .success d1, .success d], t) →
    exec (.read mask) s = .next { s with
      outX := if mask.getLsbD 0 then d.b1 ++ d.b0 else s.outX
      outY := if mask.getLsbD 1 then d.b3 ++ d.b2 else s.outY
      outZ := if mask.getLsbD 2 then d.b5 ++ d.b4 else s.outZ
      busy := false, op := 2, arg := mask.setWidth 12 <<< 8, stepNo := 0, buf := d, respOk := true, respEv := 0
      req := none, bus := t
      trace := s.trace ++
        [.write s.devaddr [0x2D, params.measure] true, .wait params.settle, .write s.devaddr [0x32] true,
          .read s.devaddr 6 true [d.b0, d.b1, d.b2, d.b3, d.b4, d.b5]]
      delivered := s.delivered ++ [.response true 0] }

/-- READ's failures: the mode write (no wait, no burst, 43_read.md R184), the burst's select, the burst's read (R185).
No slot is written and RDY stays set. After a burst that fails in either phase BUF is unspecified (R189 e): a free value
(log entry 2). What is issued after a failed mode write or select is the spec's decision, D9 and
D10 (log entry 8). -/
def Obligations.ReadFailuresWriteNoSlot : Prop :=
  (∀ (mask : BitVec 3) (s : State) (t : Transport), s.rdy = true →
    s.bus.respond (.write s.devaddr [0x2D, params.measure]) = some (.failure, t) →
    exec (.read mask) s = .next { s with
      busy := false, op := 2, arg := mask.setWidth 12 <<< 8, stepNo := 0, respOk := false, respEv := 0
      req := none, bus := t, trace := s.trace ++ [.write s.devaddr [0x2D, params.measure] false]
      delivered := s.delivered ++ [.response false 0] })
  ∧ (∀ (mask : BitVec 3) (s : State) (d0 : Bytes6) (t : Transport), s.rdy = true →
    s.bus.replies [.write s.devaddr [0x2D, params.measure], .write s.devaddr [0x32]]
      = some ([.success d0, .failure], t) →
    exec (.read mask) s = .next { s with
      busy := false, op := 2, arg := mask.setWidth 12 <<< 8, stepNo := 0, respOk := false, respEv := 0
      req := none, bus := t
      trace := s.trace ++
        [.write s.devaddr [0x2D, params.measure] true, .wait params.settle, .write s.devaddr [0x32] false]
      buf := Config.failedRead s.draws, draws := s.draws + 1
      delivered := s.delivered ++ [.response false 0] })
  ∧ ∀ (mask : BitVec 3) (s : State) (d0 d1 : Bytes6) (t : Transport), s.rdy = true →
    s.bus.replies
      [.write s.devaddr [0x2D, params.measure], .write s.devaddr [0x32], .read s.devaddr 6]
      = some ([.success d0, .success d1, .failure], t) →
    exec (.read mask) s = .next { s with
      busy := false, op := 2, arg := mask.setWidth 12 <<< 8, stepNo := 0, buf := Config.failedRead s.draws
      draws := s.draws + 1, respOk := false, respEv := 0, req := none, bus := t
      trace := s.trace ++
        [.write s.devaddr [0x2D, params.measure] true, .wait params.settle, .write s.devaddr [0x32] true,
          .read s.devaddr 6 false []]
      delivered := s.delivered ++ [.response false 0] }

/-- READ's frame: RDY, DEVADDR, ACC, the inputs, each slot whose mask bit is clear, and every chip register but
`0x2D` are unchanged (10_state.md R35, 43_read.md R186, R189). -/
def Obligations.ReadFrame : Prop :=
  ∀ (mask : BitVec 3) (s t : State), s.bus.wf = true → exec (.read mask) s = .next t →
    t.rdy = s.rdy ∧ t.devaddr = s.devaddr ∧ t.acc = s.acc ∧ t.inbox = s.inbox
      ∧ (mask.getLsbD 0 = false → t.outX = s.outX) ∧ (mask.getLsbD 1 = false → t.outY = s.outY)
      ∧ (mask.getLsbD 2 = false → t.outZ = s.outZ)
      ∧ ∀ x : Byte, x ≠ 0x2D → t.bus.reg x = s.bus.reg x

/-! ## SET_THRESH and INT_DISABLE -/

/-- SET_THRESH, whole (44_threshold.md R196): not ready, the zero response; ready, the one write with the operand
verbatim, and its status is the response. -/
def Obligations.SetThreshWritesTheOperand : Prop :=
  ∀ (t : Byte) (s : State),
    (s.rdy = false → exec (.setThresh t) s = .next { s with
      busy := false, op := 3, arg := t.setWidth 12, stepNo := 0, req := none, respOk := false, respEv := 0
      delivered := s.delivered ++ [.response false 0] })
    ∧ (s.rdy = true → ∀ (a : Answer) (b : Transport),
      s.bus.respond (.write s.devaddr [0x24, t]) = some (a, b) →
      exec (.setThresh t) s = .next { s with
        busy := false, op := 3, arg := t.setWidth 12, stepNo := 0, req := none, respOk := a.ok, respEv := 0, bus := b
        trace := s.trace ++ [.write s.devaddr [0x24, t] a.ok], delivered := s.delivered ++ [.response a.ok 0] })

/-- INT_DISABLE, whole (45_interrupts.md R216): not ready, the zero response; ready, the one write of 0 to the
interrupt-enable register, and its status is the response. -/
def Obligations.IntDisableWritesZero : Prop :=
  ∀ s : State,
    (s.rdy = false → exec .intDisable s = .next { s with
      busy := false, op := 6, arg := 0, stepNo := 0, req := none, respOk := false, respEv := 0
      delivered := s.delivered ++ [.response false 0] })
    ∧ (s.rdy = true → ∀ (a : Answer) (b : Transport),
      s.bus.respond (.write s.devaddr [0x2E, 0x00]) = some (a, b) →
      exec .intDisable s = .next { s with
        busy := false, op := 6, arg := 0, stepNo := 0, req := none, respOk := a.ok, respEv := 0, bus := b
        trace := s.trace ++ [.write s.devaddr [0x2E, 0x00] a.ok], delivered := s.delivered ++ [.response a.ok 0] })

/-- The frame of SET_THRESH and INT_DISABLE: the slots, DEVADDR, RDY, ACC, BUF and the inputs are unchanged, and every
chip register but the one stored to, `0x24` of SET_THRESH and `0x2E` of INT_DISABLE (10_state.md R35). -/
def Obligations.SingleWriteFrame : Prop :=
  ∀ (i : Instr) (reg : Byte) (s t : State),
    ((∃ v, i = .setThresh v) ∧ reg = 0x24) ∨ (i = .intDisable ∧ reg = 0x2E) → s.bus.wf = true →
    exec i s = .next t →
    t.outX = s.outX ∧ t.outY = s.outY ∧ t.outZ = s.outZ ∧ t.devaddr = s.devaddr ∧ t.rdy = s.rdy ∧ t.acc = s.acc
      ∧ t.buf = s.buf ∧ t.draws = s.draws ∧ t.inbox = s.inbox
      ∧ ∀ x : Byte, x ≠ reg → t.bus.reg x = s.bus.reg x

/-! ## INT_QUERY and INT_HANDLE -/

/-- INT_QUERY, whole (45_interrupts.md R201): not ready, a failed select, a failed read, and a read whose response is
whether the byte is nonzero. That no read follows a failed select is the spec's decision D10 (40_register_access.md R116,
log entry 8), and what BUF holds after a failed read is a free value (log entry 2).
That BUF is as it was after a failed select is DEDUCED from 40_register_access.md R110 and 10_state.md R28 (log entry
25). -/
def Obligations.IntQueryTestsNonzero : Prop :=
  ∀ s : State,
    (s.rdy = false → exec .intQuery s = .next { s with
      busy := false, op := 4, arg := 0, stepNo := 0, req := none, respOk := false, respEv := 0
      delivered := s.delivered ++ [.response false 0] })
    ∧ (s.rdy = true → ∀ b : Transport, s.bus.respond (.write s.devaddr [0x2E]) = some (.failure, b) →
      exec .intQuery s = .next { s with
        busy := false, op := 4, arg := 0, stepNo := 0, req := none, respOk := false, respEv := 0, bus := b
        trace := s.trace ++ [.write s.devaddr [0x2E] false], delivered := s.delivered ++ [.response false 0] })
    ∧ (s.rdy = true → ∀ (d0 : Bytes6) (b : Transport),
      s.bus.replies [.write s.devaddr [0x2E], .read s.devaddr 1] = some ([.success d0, .failure], b) →
      exec .intQuery s = .next { s with
        busy := false, op := 4, arg := 0, stepNo := 0, req := none, respOk := false, respEv := 0, bus := b
        buf := Config.failedRead s.draws, draws := s.draws + 1
        trace := s.trace ++ [.write s.devaddr [0x2E] true, .read s.devaddr 1 false []]
        delivered := s.delivered ++ [.response false 0] })
    ∧ (s.rdy = true → ∀ (d0 d : Bytes6) (b : Transport),
      s.bus.replies [.write s.devaddr [0x2E], .read s.devaddr 1] = some ([.success d0, .success d], b) →
      exec .intQuery s = .next { s with
        busy := false, op := 4, arg := 0, stepNo := 0, req := none, respOk := decide (d.b0 ≠ 0), respEv := 0, bus := b
        buf := { s.buf with b0 := d.b0 }
        trace := s.trace ++ [.write s.devaddr [0x2E] true, .read s.devaddr 1 true [d.b0]]
        delivered := s.delivered ++ [.response (decide (d.b0 ≠ 0)) 0] })

/-- `decode_events` (41_decoders.md R142): activity is bit 4 of the byte, single tap bit 6, double tap bit 5 (D15), each
on its own, the other bits ignored. Which bit is which tap is the spec's own choice (D15 and 90_conflicts.md C5, log
entry 10). -/
def Obligations.EventsAreThreeBitTests : Prop :=
  ∀ b : Byte,
    (decodeEvents b).getLsbD 0 = b.getLsbD 4 ∧ (decodeEvents b).getLsbD 1 = b.getLsbD 6
      ∧ (decodeEvents b).getLsbD 2 = b.getLsbD 5

/-- INT_HANDLE, whole (45_interrupts.md R221): not ready, a failed select and a failed read give the empty set, a
successful read the decoded events; RESP_OK is 0 (R220). That no read follows a failed select is the spec's decision
D10 (40_register_access.md R116, log entry 8), and what BUF holds after a failed read is a free value (log entry 2).
That BUF is as it was after a failed select is DEDUCED from 40_register_access.md R110 and 10_state.md R28 (log entry
25). -/
def Obligations.IntHandleDecodesEvents : Prop :=
  ∀ s : State,
    (s.rdy = false → exec .intHandle s = .next { s with
      busy := false, op := 7, arg := 0, stepNo := 0, req := none, respOk := false, respEv := 0
      delivered := s.delivered ++ [.response false 0] })
    ∧ (s.rdy = true → ∀ b : Transport, s.bus.respond (.write s.devaddr [0x30]) = some (.failure, b) →
      exec .intHandle s = .next { s with
        busy := false, op := 7, arg := 0, stepNo := 0, req := none, respOk := false, respEv := 0, bus := b
        trace := s.trace ++ [.write s.devaddr [0x30] false], delivered := s.delivered ++ [.response false 0] })
    ∧ (s.rdy = true → ∀ (d0 : Bytes6) (b : Transport),
      s.bus.replies [.write s.devaddr [0x30], .read s.devaddr 1] = some ([.success d0, .failure], b) →
      exec .intHandle s = .next { s with
        busy := false, op := 7, arg := 0, stepNo := 0, req := none, respOk := false, respEv := 0, bus := b
        buf := Config.failedRead s.draws, draws := s.draws + 1
        trace := s.trace ++ [.write s.devaddr [0x30] true, .read s.devaddr 1 false []]
        delivered := s.delivered ++ [.response false 0] })
    ∧ (s.rdy = true → ∀ (d0 d : Bytes6) (b : Transport),
      s.bus.replies [.write s.devaddr [0x30], .read s.devaddr 1] = some ([.success d0, .success d], b) →
      exec .intHandle s = .next { s with
        busy := false, op := 7, arg := 0, stepNo := 0, req := none, respOk := false, respEv := decodeEvents d.b0
        bus := b, buf := { s.buf with b0 := d.b0 }
        trace := s.trace ++ [.write s.devaddr [0x30] true, .read s.devaddr 1 true [d.b0]]
        delivered := s.delivered ++ [.response false (decodeEvents d.b0)] })

/-- The frame of INT_QUERY and INT_HANDLE: the slots, DEVADDR, RDY, ACC, BUF[1..5] of a read that did not fail and the
inputs are unchanged, every chip register of INT_QUERY, and every one but `0x30` of INT_HANDLE, whose read clears it
(10_state.md R35, 20_memory.md R58).
That BUF is as it was after a failed select, too, is DEDUCED from 40_register_access.md R110 and 10_state.md R28 (log entry
25). -/
def Obligations.SingleReadFrame : Prop :=
  ∀ (i : Instr) (s t : State), i = .intQuery ∨ i = .intHandle → s.bus.wf = true → exec i s = .next t →
    t.outX = s.outX ∧ t.outY = s.outY ∧ t.outZ = s.outZ ∧ t.devaddr = s.devaddr ∧ t.rdy = s.rdy ∧ t.acc = s.acc
      ∧ t.inbox = s.inbox ∧ (t.draws = s.draws → t.buf = { s.buf with b0 := t.buf.b0 })
      ∧ ∀ x : Byte, (i = .intHandle → x ≠ 0x30) → t.bus.reg x = s.bus.reg x

/-! ## INT_ENABLE -/

/-- INT_ENABLE on a ready machine, its flush after the fourth write (45_interrupts.md R206, R210, R213): the six writes
of INIT, each attempted whatever the others' statuses, with the flush between the fourth and the fifth; the response
is the AND of the six statuses, whatever the flush's outcome; RDY is unchanged. The flush succeeds, its read fails, or
its select fails. The flush's place and that its outcome is ignored are the spec's decisions D11 and D12 (R208; log entries
11 and 9), and that no read follows its failed select is D10 (40_register_access.md R116, log entry 8). What BUF holds
after its failed read is a free value (log entry 2).
That BUF is as it was after a failed select is DEDUCED from 40_register_access.md R110 and 10_state.md R28 (log entry
25). -/
def Obligations.IntEnableRunsSixWritesAndFlush : Prop :=
  (∀ (s : State) (f0 f : Bytes6) (w1 w2 w3 w4 w5 w6 : Answer) (b : Transport), s.rdy = true →
    s.bus.replies
      [.write s.devaddr [0x2E, 0x00], .write s.devaddr [0x24, params.threshDefault],
        .write s.devaddr [0x27, params.actCtl], .write s.devaddr [0x2C, params.bwRate], .write s.devaddr [0x30],
        .read s.devaddr 1, .write s.devaddr [0x2E, params.intAct], .write s.devaddr [0x2D, params.measure]]
      = some ([w1, w2, w3, w4, .success f0, .success f, w5, w6], b) →
    exec .intEnable s = .next { s with
      busy := false, op := 5, arg := 0, stepNo := 0, req := none, bus := b
      acc := w1.ok && w2.ok && w3.ok && w4.ok && w5.ok && w6.ok
      buf := { s.buf with b0 := f.b0 }
      respOk := w1.ok && w2.ok && w3.ok && w4.ok && w5.ok && w6.ok, respEv := 0
      trace := s.trace ++
        [.write s.devaddr [0x2E, 0x00] w1.ok, .write s.devaddr [0x24, params.threshDefault] w2.ok,
          .write s.devaddr [0x27, params.actCtl] w3.ok, .write s.devaddr [0x2C, params.bwRate] w4.ok,
          .write s.devaddr [0x30] true, .read s.devaddr 1 true [f.b0], .write s.devaddr [0x2E, params.intAct] w5.ok,
          .write s.devaddr [0x2D, params.measure] w6.ok]
      delivered := s.delivered ++ [.response (w1.ok && w2.ok && w3.ok && w4.ok && w5.ok && w6.ok) 0] })
  ∧ (∀ (s : State) (f0 : Bytes6) (w1 w2 w3 w4 w5 w6 : Answer) (b : Transport), s.rdy = true →
    s.bus.replies
      [.write s.devaddr [0x2E, 0x00], .write s.devaddr [0x24, params.threshDefault],
        .write s.devaddr [0x27, params.actCtl], .write s.devaddr [0x2C, params.bwRate], .write s.devaddr [0x30],
        .read s.devaddr 1, .write s.devaddr [0x2E, params.intAct], .write s.devaddr [0x2D, params.measure]]
      = some ([w1, w2, w3, w4, .success f0, .failure, w5, w6], b) →
    exec .intEnable s = .next { s with
      busy := false, op := 5, arg := 0, stepNo := 0, req := none, bus := b
      acc := w1.ok && w2.ok && w3.ok && w4.ok && w5.ok && w6.ok
      buf := Config.failedRead s.draws, draws := s.draws + 1
      respOk := w1.ok && w2.ok && w3.ok && w4.ok && w5.ok && w6.ok, respEv := 0
      trace := s.trace ++
        [.write s.devaddr [0x2E, 0x00] w1.ok, .write s.devaddr [0x24, params.threshDefault] w2.ok,
          .write s.devaddr [0x27, params.actCtl] w3.ok, .write s.devaddr [0x2C, params.bwRate] w4.ok,
          .write s.devaddr [0x30] true, .read s.devaddr 1 false [], .write s.devaddr [0x2E, params.intAct] w5.ok,
          .write s.devaddr [0x2D, params.measure] w6.ok]
      delivered := s.delivered ++ [.response (w1.ok && w2.ok && w3.ok && w4.ok && w5.ok && w6.ok) 0] })
  ∧ ∀ (s : State) (w1 w2 w3 w4 w5 w6 : Answer) (b : Transport), s.rdy = true →
    s.bus.replies
      [.write s.devaddr [0x2E, 0x00], .write s.devaddr [0x24, params.threshDefault],
        .write s.devaddr [0x27, params.actCtl], .write s.devaddr [0x2C, params.bwRate], .write s.devaddr [0x30],
        .write s.devaddr [0x2E, params.intAct], .write s.devaddr [0x2D, params.measure]]
      = some ([w1, w2, w3, w4, .failure, w5, w6], b) →
    exec .intEnable s = .next { s with
      busy := false, op := 5, arg := 0, stepNo := 0, req := none, bus := b
      acc := w1.ok && w2.ok && w3.ok && w4.ok && w5.ok && w6.ok
      respOk := w1.ok && w2.ok && w3.ok && w4.ok && w5.ok && w6.ok, respEv := 0
      trace := s.trace ++
        [.write s.devaddr [0x2E, 0x00] w1.ok, .write s.devaddr [0x24, params.threshDefault] w2.ok,
          .write s.devaddr [0x27, params.actCtl] w3.ok, .write s.devaddr [0x2C, params.bwRate] w4.ok,
          .write s.devaddr [0x30] false, .write s.devaddr [0x2E, params.intAct] w5.ok,
          .write s.devaddr [0x2D, params.measure] w6.ok]
      delivered := s.delivered ++ [.response (w1.ok && w2.ok && w3.ok && w4.ok && w5.ok && w6.ok) 0] }

/-- For every `P_FLUSH_POS` and every other parameter (45_interrupts.md R208): the flush stands after write
`P_FLUSH_POS`, and INT_ENABLE answers the AND of the six writes' statuses `ws`, whatever the flush's read `f` gave, and
also where its select fails and no read is issued. That the flush's outcome is ignored is the spec's decision D12 (log
entry 9), and that no read follows a failed select is D10 (log entry 8). -/
def Obligations.IntEnableResultForEveryFlushPos : Prop :=
  (∀ (P : Params) (s : State) (requests : List Request) (ws : List Answer) (f0 : Bytes6) (f : Answer) (b : Transport),
    s.rdy = true →
    requests = (configSequence P).map (fun w => Request.write s.devaddr [w.1, w.2]) → ws.length = 6 →
    s.bus.replies
      (requests.take P.flushPos.toNat ++ [.write s.devaddr [0x30], .read s.devaddr 1]
        ++ requests.drop P.flushPos.toNat)
      = some (ws.take P.flushPos.toNat ++ [.success f0, f] ++ ws.drop P.flushPos.toNat, b) →
    (intEnableCommand P s).respOk = ws.all Answer.ok ∧ (intEnableCommand P s).busy = false
      ∧ (intEnableCommand P s).rdy = true ∧ (intEnableCommand P s).bus = b)
  ∧ ∀ (P : Params) (s : State) (requests : List Request) (ws : List Answer) (b : Transport),
    s.rdy = true →
    requests = (configSequence P).map (fun w => Request.write s.devaddr [w.1, w.2]) → ws.length = 6 →
    s.bus.replies
      (requests.take P.flushPos.toNat ++ [.write s.devaddr [0x30]] ++ requests.drop P.flushPos.toNat)
      = some (ws.take P.flushPos.toNat ++ [.failure] ++ ws.drop P.flushPos.toNat, b) →
    (intEnableCommand P s).respOk = ws.all Answer.ok ∧ (intEnableCommand P s).busy = false
      ∧ (intEnableCommand P s).rdy = true ∧ (intEnableCommand P s).bus = b

/-- INT_ENABLE's frame: the slots, DEVADDR, RDY, the inputs, BUF[1..5] unless the flush's read failed, and every chip
register but the five configuration registers and `0x30`, which the flush clears, are unchanged (10_state.md R35,
45_interrupts.md R210, 40_register_access.md R111).
That BUF is as it was after a failed select, too, is DEDUCED from 40_register_access.md R110 and 10_state.md R28 (log entry
25). -/
def Obligations.IntEnableFrame : Prop :=
  ∀ s t : State, s.bus.wf = true → exec .intEnable s = .next t →
    t.outX = s.outX ∧ t.outY = s.outY ∧ t.outZ = s.outZ ∧ t.devaddr = s.devaddr ∧ t.rdy = s.rdy
      ∧ t.inbox = s.inbox ∧ (t.draws = s.draws → t.buf = { s.buf with b0 := t.buf.b0 })
      ∧ ∀ x : Byte, x ∉ [0x24, 0x27, 0x2C, 0x2D, 0x2E, 0x30] → t.bus.reg x = s.bus.reg x

/-! ## The register-level operations -/

/-- The five register writes (40_register_access.md R113, R120 to R124): one write transaction of the register's
address and the value, whose status is handed back; nothing else changes.
That the operation runs on its own and hands its status back in `delivered`, BUSY, OP, ARG and STEP untouched, is DESIGN
CHOICE (log entry 5). -/
def Obligations.RegisterWriteResults : Prop :=
  ∀ (i : Instr) (r v : Byte) (s : State) (a : Answer) (b : Transport),
    (i = .wrThreshAct v ∧ r = 0x24) ∨ (i = .wrActInactCtl v ∧ r = 0x27) ∨ (i = .wrBwRate v ∧ r = 0x2C)
      ∨ (i = .wrPowerCtl v ∧ r = 0x2D) ∨ (i = .wrIntEnable v ∧ r = 0x2E) →
    s.bus.respond (.write s.devaddr [r, v]) = some (a, b) →
    exec i s = .next { s with
      req := none, bus := b, trace := s.trace ++ [.write s.devaddr [r, v] a.ok]
      delivered := s.delivered ++ [.status a.ok] }

/-- The four register reads with both phases answered with success (40_register_access.md R115, R125 to R128): the
select, the read of `n` bytes, which fill `BUF[0..n-1]` in the order received, and success is handed back.
That the operation runs on its own and hands its status back in `delivered`, BUSY, OP, ARG and STEP untouched, is DESIGN
CHOICE (log entry 5). -/
def Obligations.RegisterReadResults : Prop :=
  (∀ (i : Instr) (r : Byte) (s : State) (d0 d : Bytes6) (b : Transport),
    (i = .rdDevid ∧ r = 0x00) ∨ (i = .rdIntEnable ∧ r = 0x2E) ∨ (i = .rdIntSource ∧ r = 0x30) →
    s.bus.replies [.write s.devaddr [r], .read s.devaddr 1] = some ([.success d0, .success d], b) →
    exec i s = .next { s with
      req := none, bus := b, buf := { s.buf with b0 := d.b0 }
      trace := s.trace ++ [.write s.devaddr [r] true, .read s.devaddr 1 true [d.b0]]
      delivered := s.delivered ++ [.status true] })
  ∧ ∀ (s : State) (d0 d : Bytes6) (b : Transport),
    s.bus.replies [.write s.devaddr [0x32], .read s.devaddr 6] = some ([.success d0, .success d], b) →
    exec .rdData s = .next { s with
      req := none, bus := b, buf := d
      trace := s.trace ++
        [.write s.devaddr [0x32] true, .read s.devaddr 6 true [d.b0, d.b1, d.b2, d.b3, d.b4, d.b5]]
      delivered := s.delivered ++ [.status true] }

/-- The four register reads when a phase fails: after a failed select the read is not issued (40_register_access.md
R116, the spec's decision D10, log entry 8), and after a failed read BUF is unspecified (R111; a free value,
log entry 2). The operation on its own, its status handed back, is DESIGN CHOICE (log entry 5).
That BUF is as it was after a failed select is DEDUCED from 40_register_access.md R110 and 10_state.md R28 (log entry
25). -/
def Obligations.RegisterReadFailures : Prop :=
  ∀ (i : Instr) (r : Byte) (n : Nat) (s : State),
    (i = .rdDevid ∧ r = 0x00 ∧ n = 1) ∨ (i = .rdIntEnable ∧ r = 0x2E ∧ n = 1)
      ∨ (i = .rdIntSource ∧ r = 0x30 ∧ n = 1) ∨ (i = .rdData ∧ r = 0x32 ∧ n = 6) →
    (∀ b : Transport, s.bus.respond (.write s.devaddr [r]) = some (.failure, b) →
      exec i s = .next { s with
        req := none, bus := b, trace := s.trace ++ [.write s.devaddr [r] false]
        delivered := s.delivered ++ [.status false] })
    ∧ ∀ (d0 : Bytes6) (b : Transport),
      s.bus.replies [.write s.devaddr [r], .read s.devaddr n] = some ([.success d0, .failure], b) →
      exec i s = .next { s with
        req := none, bus := b, buf := Config.failedRead s.draws, draws := s.draws + 1
        trace := s.trace ++ [.write s.devaddr [r] true, .read s.devaddr n false []]
        delivered := s.delivered ++ [.status false] }

/-- The frame of the nine register-level operations (40_register_access.md R118): the slots, DEVADDR, RDY, BUSY, OP, ARG,
STEP, ACC, the response and the inputs are unchanged; a register write stores to its register `r` alone and leaves BUF
as it is, a register read leaves every chip register as it is but for RD_INT_SOURCE, which clears `0x30`, and one of one
byte leaves BUF[1..5] as they are unless it failed (R111). The operation on its own, its status handed back and BUSY, OP,
ARG and STEP untouched, is DESIGN CHOICE (log entry 5).
That BUF is as it was after a failed select, too, is DEDUCED from 40_register_access.md R110 and 10_state.md R28 (log entry
25). -/
def Obligations.RegisterOperationFrame : Prop :=
  ∀ (i : Instr) (stored : Option Byte) (s t : State),
    ((∃ v, i = .wrThreshAct v) ∧ stored = some 0x24) ∨ ((∃ v, i = .wrActInactCtl v) ∧ stored = some 0x27)
      ∨ ((∃ v, i = .wrBwRate v) ∧ stored = some 0x2C) ∨ ((∃ v, i = .wrPowerCtl v) ∧ stored = some 0x2D)
      ∨ ((∃ v, i = .wrIntEnable v) ∧ stored = some 0x2E) ∨ (i = .rdDevid ∧ stored = none)
      ∨ (i = .rdIntEnable ∧ stored = none) ∨ (i = .rdIntSource ∧ stored = some 0x30)
      ∨ (i = .rdData ∧ stored = none) →
    s.bus.wf = true → exec i s = .next t →
    t.outX = s.outX ∧ t.outY = s.outY ∧ t.outZ = s.outZ ∧ t.devaddr = s.devaddr ∧ t.rdy = s.rdy ∧ t.busy = s.busy
      ∧ t.op = s.op ∧ t.arg = s.arg ∧ t.stepNo = s.stepNo ∧ t.acc = s.acc ∧ t.respOk = s.respOk
      ∧ t.respEv = s.respEv ∧ t.inbox = s.inbox
      ∧ ((∃ r v, encode i = .registerOp [r, v]) → t.buf = s.buf)
      ∧ (i ≠ .rdData → t.draws = s.draws → t.buf = { s.buf with b0 := t.buf.b0 })
      ∧ ∀ x : Byte, stored ≠ some x → t.bus.reg x = s.bus.reg x

/-- `RegRead(r, n)` (40_register_access.md R115, R116), whatever is done with its outcome: a failed select ends it with
failure and no read, a failed read with failure, and only both phases' success is success, with the bytes received in
`BUF[0..n-1]`. That no read follows a failed select is the spec's decision D10 (log entry 8), that BUF is as it was after
it is DEDUCED (R110 and 10_state.md R28, log entry 25), and what BUF holds after a failed read is a free value (log entry 2). For `n` above 6,
which SEQ never reads, that six bytes are received is DESIGN CHOICE (log entry 20). -/
def Obligations.RegReadIsTwoPhases : Prop :=
  ∀ (k₁ k₂ : BitVec 4) (r : Byte) (n : Nat) (s : State) (go : Bool → State → State),
    (∀ b : Transport, s.bus.respond (.write s.devaddr [r]) = some (.failure, b) →
      regRead k₁ k₂ r n s go
        = go false { s with req := none, bus := b, trace := s.trace ++ [.write s.devaddr [r] false] })
    ∧ (∀ (d0 : Bytes6) (b : Transport),
      s.bus.replies [.write s.devaddr [r], .read s.devaddr n] = some ([.success d0, .failure], b) →
      regRead k₁ k₂ r n s go
        = go false { s with
            req := none, bus := b, buf := Config.failedRead s.draws, draws := s.draws + 1
            trace := s.trace ++ [.write s.devaddr [r] true, .read s.devaddr n false []] })
    ∧ ∀ (d0 d : Bytes6) (b : Transport),
      s.bus.replies [.write s.devaddr [r], .read s.devaddr n] = some ([.success d0, .success d], b) →
      regRead k₁ k₂ r n s go
        = go true { s with
            req := none, bus := b, buf := Bytes6.fill n d s.buf
            trace := s.trace ++ [.write s.devaddr [r] true, .read s.devaddr n true (Bytes6.firstN n d)] }

/-! ## With the reference chip (95_test_vectors.md section 4) -/

/-- Against the reference chip with its identity byte in place, INIT succeeds iff it is given the chip's address, and
then leaves the chip in the known operating mode (70_reset_and_hazards.md R264): the five configuration registers as
written, every other register as it was. -/
def Obligations.InitConfiguresTheChip : Prop :=
  ∀ (a7 : BitVec 7) (s : State) (c : RefChip), s.bus = .chip c → c.regs.wf = true → c.reg 0x00 = 0xE5 →
    ∃ t, exec (.init a7) s = .next t ∧ t.busy = false ∧ (t.rdy = true ↔ a7 = c.addr7)
      ∧ (a7 = c.addr7 →
          t.bus.reg 0x24 = some params.threshDefault ∧ t.bus.reg 0x27 = some params.actCtl
            ∧ t.bus.reg 0x2C = some params.bwRate ∧ t.bus.reg 0x2E = some params.intAct
            ∧ t.bus.reg 0x2D = some params.measure
            ∧ ∀ x : Byte, x ∉ [0x24, 0x27, 0x2C, 0x2D, 0x2E] → t.bus.reg x = s.bus.reg x)
      ∧ (a7 ≠ c.addr7 → t.bus = s.bus)

/-- Against the reference chip at DEVADDR, INT_HANDLE answers the events of register `0x30` as it was, and the read
clears the register on the chip: at once a second INT_HANDLE answers the empty set (20_memory.md R58,
45_interrupts.md R222). -/
def Obligations.HandleReadsAndClearsTheLatch : Prop :=
  ∀ (s : State) (c : RefChip), s.rdy = true → s.bus = .chip c → c.regs.wf = true → s.devaddr = busForm c.addr7 →
    ∃ t u, exec .intHandle s = .next t ∧ t.respEv = decodeEvents (c.reg 0x30) ∧ t.bus.reg 0x30 = some 0
      ∧ exec .intHandle t = .next u ∧ u.respEv = 0

/-- Against the reference chip at DEVADDR, INT_ENABLE replaces the activity threshold, whatever it was, with
`P_THRESH_DEFAULT` (45_interrupts.md R209), and its flush clears the latched interrupt bits (R214). -/
def Obligations.IntEnableReplacesTheThreshold : Prop :=
  ∀ (s : State) (c : RefChip), s.rdy = true → s.bus = .chip c → c.regs.wf = true → s.devaddr = busForm c.addr7 →
    ∃ t, exec .intEnable s = .next t ∧ t.respOk = true ∧ t.bus.reg 0x24 = some params.threshDefault
      ∧ t.bus.reg 0x30 = some 0 ∧ t.bus.reg 0x2E = some params.intAct

/-- Against the reference chip at DEVADDR, READ takes each selected sample from the chip's six consecutive registers
`0x32` to `0x37`, low byte first (20_memory.md R54, R60). -/
def Obligations.ReadTakesConsecutiveRegisters : Prop :=
  ∀ (s : State) (c : RefChip), s.rdy = true → s.bus = .chip c → c.regs.wf = true → s.devaddr = busForm c.addr7 →
    ∀ mask : BitVec 3, ∃ t, exec (.read mask) s = .next t ∧ t.respOk = true
      ∧ t.outX = (if mask.getLsbD 0 then c.reg 0x33 ++ c.reg 0x32 else s.outX)
      ∧ t.outY = (if mask.getLsbD 1 then c.reg 0x35 ++ c.reg 0x34 else s.outY)
      ∧ t.outZ = (if mask.getLsbD 2 then c.reg 0x37 ++ c.reg 0x36 else s.outZ)
      ∧ t.bus.reg 0x2D = some params.measure

/-! ## Host side -/

/-- The assembler lines of 30_encoding.md R98 and the pseudo-instruction of R99: a line whose operand is in range has a
word that decodes to its command, `INIT` without an operand to `INIT P_DEFAULT_ADDR`, and a line out of range has
none. -/
def Obligations.AssembledLinesDecode : Prop :=
  ∀ P : Params,
    (∀ a : Nat, a ≤ 0x7F →
      (assemble P (.init (some a))).map decodeCommand = some (.instr (.init (BitVec.ofNat 7 a))))
    ∧ (assemble P (.init none)).map decodeCommand = some (.instr (.init P.defaultAddr))
    ∧ (∀ slots, (assemble P (.read slots)).map decodeCommand = some (.instr (.read (slotMask slots))))
    ∧ (∀ t : Nat, t ≤ 0xFF →
      (assemble P (.setThresh t)).map decodeCommand = some (.instr (.setThresh (BitVec.ofNat 8 t))))
    ∧ (assemble P .intQuery).map decodeCommand = some (.instr .intQuery)
    ∧ (assemble P .intEnable).map decodeCommand = some (.instr .intEnable)
    ∧ (assemble P .intDisable).map decodeCommand = some (.instr .intDisable)
    ∧ (assemble P .intHandle).map decodeCommand = some (.instr .intHandle)
    ∧ (∀ a : Nat, 0x7F < a → assemble P (.init (some a)) = none)
    ∧ ∀ t : Nat, 0xFF < t → assemble P (.setThresh t) = none

/-- The response packed as 30_encoding.md R97 packs it: bit 0 is RESP_OK, bits 1 to 3 are activity, single tap and double
tap. -/
def Obligations.ResponsePacking : Prop :=
  ∀ s : State,
    (respWord s).getLsbD 0 = s.respOk ∧ (respWord s).getLsbD 1 = s.respEv.getLsbD 0
      ∧ (respWord s).getLsbD 2 = s.respEv.getLsbD 1 ∧ (respWord s).getLsbD 3 = s.respEv.getLsbD 2
end

