-- ==== Sys2Proof/Laws/Memory.lean ====
section
/-! SUPPORT. The chip register space: a read after a write, the canonical form kept by every operation, and equal
canonical memories from equal reads. -/

namespace Sys2Proof.Machine

theorem Memory.wfFrom_mono {lo lo' : Nat} (h : lo' ≤ lo) : ∀ {m : Memory}, m.wfFrom lo = true → m.wfFrom lo' = true
  | [], _ => rfl
  | (b, v) :: rest, hm => by
    simp only [Memory.wfFrom, Bool.and_eq_true, decide_eq_true_eq] at hm ⊢
    exact ⟨⟨⟨by omega, hm.1.1.2⟩, hm.1.2⟩, hm.2⟩

/-- Below a canonical memory's first address every register reads as its initial value. -/
theorem Memory.read_below {m : Memory} : ∀ {lo a : Nat}, m.wfFrom lo = true → a < lo →
    m.read a = Memory.initial a := by
  induction m with
  | nil => intros; rfl
  | cons c rest ih =>
    intro lo a hm ha
    obtain ⟨b, v⟩ := c
    simp only [Memory.wfFrom, Bool.and_eq_true, decide_eq_true_eq] at hm
    simp only [Memory.read]
    rw [if_neg (by omega)]
    exact ih hm.2 (by omega)

theorem Memory.read_put (a x : Nat) (v : Byte) {rest : Memory} (hrest : rest.read a = Memory.initial a) :
    (Memory.put a v rest).read x = if x = a then v else rest.read x := by
  unfold Memory.put
  by_cases hv : v = Memory.initial a
  · rw [if_pos hv]
    by_cases hx : x = a
    · rw [if_pos hx, hx, hrest, hv]
    · rw [if_neg hx]
  · rw [if_neg hv, Memory.read]

theorem Memory.put_wfFrom {lo a : Nat} {v : Byte} {rest : Memory} (hlo : lo ≤ a) (ha : a < 256)
    (hrest : rest.wfFrom (a + 1) = true) : (Memory.put a v rest).wfFrom lo = true := by
  unfold Memory.put
  by_cases hv : v = Memory.initial a
  · rw [if_pos hv]
    exact Memory.wfFrom_mono (by omega) hrest
  · rw [if_neg hv]
    simp [Memory.wfFrom, hlo, ha, hv, hrest]

/-- A write keeps the canonical form. -/
theorem Memory.write_wfFrom {a : Nat} {v : Byte} (ha : a < 256) : ∀ {m : Memory} {lo : Nat}, lo ≤ a →
    m.wfFrom lo = true → (m.write a v).wfFrom lo = true
  | [], lo, hlo, _ => Memory.put_wfFrom hlo ha rfl
  | (b, w) :: rest, lo, hlo, hm => by
    have hm' := hm
    simp only [Memory.wfFrom, Bool.and_eq_true, decide_eq_true_eq] at hm
    simp only [Memory.write]
    split
    · refine Memory.put_wfFrom hlo ha ?_
      simp only [Memory.wfFrom, Bool.and_eq_true, decide_eq_true_eq]
      exact ⟨⟨⟨by omega, hm.1.1.2⟩, hm.1.2⟩, hm.2⟩
    · split
      · next h => subst h; exact Memory.put_wfFrom hlo ha hm.2
      · have := Memory.write_wfFrom (v := v) ha (lo := b + 1) (by omega) hm.2
        simp only [Memory.wfFrom, Bool.and_eq_true, decide_eq_true_eq]
        exact ⟨hm.1, this⟩

theorem Memory.write_wf {m : Memory} {a : Nat} (v : Byte) (ha : a < 256) (hm : m.wf = true) :
    (m.write a v).wf = true := Memory.write_wfFrom ha (Nat.zero_le a) hm

/-- A register reads as written, every other as before. -/
theorem Memory.read_write {a x : Nat} {v : Byte} : ∀ {m : Memory} {lo : Nat}, m.wfFrom lo = true →
    (m.write a v).read x = if x = a then v else m.read x
  | [], _, _ => Memory.read_put a x v rfl
  | (b, w) :: rest, lo, hm => by
    have hm' := hm
    simp only [Memory.wfFrom, Bool.and_eq_true, decide_eq_true_eq] at hm
    simp only [Memory.write]
    split
    · next hab =>
      refine Memory.read_put a x v ?_
      rw [Memory.read, if_neg (by omega)]
      exact Memory.read_below hm.2 (by omega)
    · split
      · next hab =>
        subst hab
        rw [Memory.read_put a x v (Memory.read_below hm.2 (by omega)), Memory.read]
        split <;> rfl
      · next hab hne =>
        simp only [Memory.read]
        rw [Memory.read_write (a := a) (x := x) hm.2]
        split
        · next h => subst h; rw [if_neg (fun h' => hne h'.symm)]
        · rfl

theorem Memory.read_write_same {m : Memory} (hm : m.wf = true) (a : Nat) (v : Byte) :
    (m.write a v).read a = v := by rw [Memory.read_write hm, if_pos rfl]

theorem Memory.read_write_other {m : Memory} (hm : m.wf = true) {a x : Nat} (v : Byte) (h : x ≠ a) :
    (m.write a v).read x = m.read x := by rw [Memory.read_write hm, if_neg h]

end Sys2Proof.Machine
end

