-- ==== Sys2Proof/Laws/Chip.lean ====
section
/-! SUPPORT. What the reference chip and the transport answer, and what they keep. -/

namespace Sys2Proof.Machine

@[simp] theorem RefChip.setReg_addr7 (c : RefChip) (r v : Byte) : (c.setReg r v).addr7 = c.addr7 := rfl
@[simp] theorem RefChip.setReg_ptr (c : RefChip) (r v : Byte) : (c.setReg r v).ptr = c.ptr := rfl

theorem RefChip.setReg_wf {c : RefChip} (r v : Byte) (h : c.regs.wf = true) : (c.setReg r v).regs.wf = true :=
  Memory.write_wf v r.isLt h

/-- A register of the chip reads as it was set, every other as before. -/
theorem RefChip.reg_setReg {c : RefChip} (h : c.regs.wf = true) (r v a : Byte) :
    (c.setReg r v).reg a = if a = r then v else c.reg a := by
  unfold RefChip.reg RefChip.setReg
  rw [Memory.read_write h]
  simp only [BitVec.toNat_inj]

@[simp] theorem RefChip.afterRead_addr7 (c : RefChip) (n : Nat) : (c.afterRead n).addr7 = c.addr7 := by
  unfold RefChip.afterRead
  dsimp only
  split <;> rfl

theorem RefChip.afterRead_wf {c : RefChip} (n : Nat) (h : c.regs.wf = true) : (c.afterRead n).regs.wf = true := by
  unfold RefChip.afterRead
  dsimp only
  split
  · exact RefChip.setReg_wf _ _ h
  · exact h

/-- A read clears `0x30` where it reads it, and nothing else. -/
theorem RefChip.reg_afterRead {c : RefChip} (h : c.regs.wf = true) (n : Nat) (a : Byte) :
    (c.afterRead n).reg a
      = if a = regIntSource ∧ (regIntSource - c.ptr).toNat < n then 0x00 else c.reg a := by
  unfold RefChip.afterRead
  dsimp only
  by_cases hn : (regIntSource - c.ptr).toNat < n
  · rw [if_pos hn]
    change (c.setReg regIntSource 0x00).reg a = _
    rw [RefChip.reg_setReg h]
    simp only [hn, and_true]
  · rw [if_neg hn]
    simp only [hn, and_false, if_false]
    rfl

/-- Whatever is asked, the chip keeps its canonical form and its address. -/
theorem RefChip.respond_wf {c c' : RefChip} {r : Request} {a : Answer} (h : c.respond r = some (a, c'))
    (hc : c.regs.wf = true) : c'.regs.wf = true := by
  unfold RefChip.respond at h
  split at h
  · split at h <;> (cases h; exact hc)
  · split at h
    · cases h
      dsimp only
      split
      · exact hc
      · exact RefChip.setReg_wf _ _ hc
    · cases h; exact hc
  · cases h
  · split at h
    · cases h; exact RefChip.afterRead_wf _ hc
    · cases h; exact hc

/-- The transport's memory keeps its canonical form whatever is asked. -/
theorem Transport.respond_wf {t t' : Transport} {r : Request} {a : Answer} (h : t.respond r = some (a, t'))
    (ht : t.wf = true) : t'.wf = true := by
  unfold Transport.respond at h
  split at h
  · cases h
  · cases h; rfl
  · next c r =>
    simp only [Option.map_eq_some_iff, Prod.mk.injEq] at h
    obtain ⟨⟨a', c'⟩, hr, rfl, rfl⟩ := h
    exact RefChip.respond_wf hr ht

theorem Transport.activity_wf {t : Transport} (r v : Byte) (ht : t.wf = true) : (t.activity r v).wf = true := by
  cases t with
  | scripted answers => rfl
  | chip c => exact RefChip.setReg_wf r v ht

/-- A write of one byte changes no chip register. -/
theorem Transport.reg_select {t t' : Transport} {dev r : Byte} {a : Answer}
    (h : t.respond (.write dev [r]) = some (a, t')) (x : Byte) : t'.reg x = t.reg x := by
  cases t with
  | scripted answers =>
    cases answers with
    | nil => cases h
    | cons b rest => cases h; rfl
  | chip c =>
    simp only [Transport.respond, RefChip.respond] at h
    split at h <;> (cases h; rfl)

/-- A write of two bytes changes no chip register but the one it names. -/
theorem Transport.reg_write {t t' : Transport} {dev r v : Byte} {a : Answer} (ht : t.wf = true)
    (h : t.respond (.write dev [r, v]) = some (a, t')) {x : Byte} (hx : x ≠ r) : t'.reg x = t.reg x := by
  cases t with
  | scripted answers =>
    cases answers with
    | nil => cases h
    | cons b rest => cases h; rfl
  | chip c =>
    simp only [Transport.respond, RefChip.respond] at h
    split at h
    · cases h
      simp only [Transport.reg, Option.some.injEq]
      change (if r = regDevid then c else c.setReg r v).reg x = _
      split
      · rfl
      · rw [RefChip.reg_setReg ht, if_neg hx]
    · cases h; rfl

/-- A read changes no chip register but `0x30`. -/
theorem Transport.reg_read {t t' : Transport} {dev : Byte} {n : Nat} {a : Answer} (ht : t.wf = true)
    (h : t.respond (.read dev n) = some (a, t')) {x : Byte} (hx : x ≠ regIntSource) : t'.reg x = t.reg x := by
  cases t with
  | scripted answers =>
    cases answers with
    | nil => cases h
    | cons b rest => cases h; rfl
  | chip c =>
    simp only [Transport.respond, RefChip.respond] at h
    split at h
    · cases h
      simp only [Transport.reg, Option.some.injEq]
      rw [RefChip.reg_afterRead ht]
      simp only [hx, false_and, if_false]
    · cases h; rfl

/-- A select and then a read of bytes that do not reach `0x30` change no chip register. -/
theorem Transport.reg_select_read {t t₁ t₂ : Transport} {dev r : Byte} {n : Nat} {d : Bytes6} {a : Answer}
    (ht : t.wf = true) (h₁ : t.respond (.write dev [r]) = some (.success d, t₁))
    (h₂ : t₁.respond (.read dev n) = some (a, t₂)) (hn : n ≤ (regIntSource - r).toNat) (x : Byte) :
    t₂.reg x = t.reg x := by
  cases t with
  | scripted answers =>
    cases answers with
    | nil => cases h₁
    | cons b rest =>
      cases h₁
      cases rest with
      | nil => cases h₂
      | cons b' rest' => cases h₂; rfl
  | chip c =>
    simp only [Transport.respond, RefChip.respond] at h₁
    split at h₁
    · cases h₁
      simp only [Transport.respond, RefChip.respond] at h₂
      split at h₂
      · cases h₂
        simp only [Transport.reg, Option.some.injEq]
        rw [RefChip.reg_afterRead (c := { c with ptr := r }) ht, if_neg (by rintro ⟨-, h⟩; exact absurd h (Nat.not_lt.2 hn))]
        rfl
      · next hdev hne => exact absurd hdev hne
    · cases h₁

@[simp] theorem Transport.replies_nil (t : Transport) : t.replies [] = some ([], t) := by
  cases t <;> rfl

/-- A list of transactions is answered where the first is and then the rest. -/
theorem Transport.replies_cons {t t' : Transport} {r : Request} {rs : List Request} {as : List Answer} :
    t.replies (r :: rs) = some (as, t')
      ↔ ∃ a t₁ as', t.respond r = some (a, t₁) ∧ t₁.replies rs = some (as', t') ∧ as = a :: as' := by
  rw [Transport.replies]
  constructor
  · intro h
    split at h
    · cases h
    · next a t₁ hr =>
      split at h
      · cases h
      · next as' t₂ hrs => cases h; exact ⟨a, t₁, as', hr, hrs, rfl⟩
  · rintro ⟨a, t₁, as', hr, hrs, rfl⟩
    simp only [hr, hrs]

/-- The first transaction's answer, and the rest's. -/
theorem Transport.replies_cons_cons {t t' : Transport} {r : Request} {rs : List Request} {a : Answer}
    {as : List Answer} :
    t.replies (r :: rs) = some (a :: as, t')
      ↔ ∃ t₁, t.respond r = some (a, t₁) ∧ t₁.replies rs = some (as, t') := by
  rw [Transport.replies_cons]
  constructor
  · rintro ⟨b, t₁, as', hr, hrs, h⟩
    obtain ⟨rfl, rfl⟩ := List.cons.inj h
    exact ⟨t₁, hr, hrs⟩
  · rintro ⟨t₁, hr, hrs⟩
    exact ⟨a, t₁, as, hr, hrs, rfl⟩

theorem Transport.replies_append {rs₁ rs₂ : List Request} : ∀ {t t' : Transport} {as : List Answer},
    t.replies (rs₁ ++ rs₂) = some (as, t')
      ↔ ∃ as₁ t₁ as₂, t.replies rs₁ = some (as₁, t₁) ∧ t₁.replies rs₂ = some (as₂, t') ∧ as = as₁ ++ as₂ := by
  induction rs₁ with
  | nil => simp
  | cons r rs ih =>
    intro t t' as
    simp only [List.cons_append, Transport.replies_cons, ih]
    constructor
    · rintro ⟨a, t₁, as', hr, ⟨as₁, t₂, as₂, h₁, h₂, rfl⟩, rfl⟩
      exact ⟨a :: as₁, t₂, as₂, ⟨a, t₁, as₁, hr, h₁, rfl⟩, h₂, rfl⟩
    · rintro ⟨as₁, t₂, as₂, ⟨a, t₁, as', hr, h₁, rfl⟩, h₂, rfl⟩
      exact ⟨a, t₁, as' ++ as₂, hr, ⟨as', t₂, as₂, h₁, h₂, rfl⟩, rfl⟩

end Sys2Proof.Machine
end

