-- ==== Sys2Proof/Laws/Operands.lean ====
section
/-! SUPPORT. The operand forms: the fields of a command word, the received bytes, statuses and parameters. -/

namespace Sys2Proof.Machine

@[simp] theorem Answer.ok_success (d : Bytes6) : (Answer.success d).ok = true := rfl
@[simp] theorem Answer.ok_failure : Answer.failure.ok = false := rfl

@[simp] theorem params_flushPos : params.flushPos = .after4 := rfl

@[simp] theorem Bytes6.firstN_one (d : Bytes6) : Bytes6.firstN 1 d = [d.b0] := rfl
@[simp] theorem Bytes6.firstN_six (d : Bytes6) : Bytes6.firstN 6 d = [d.b0, d.b1, d.b2, d.b3, d.b4, d.b5] := rfl
@[simp] theorem Bytes6.fill_one (d old : Bytes6) : Bytes6.fill 1 d old = { old with b0 := d.b0 } := rfl
@[simp] theorem Bytes6.fill_six (d old : Bytes6) : Bytes6.fill 6 d old = d := rfl

theorem Bytes6.firstN_length {n : Nat} (h : n ≤ 6) (d : Bytes6) : (Bytes6.firstN n d).length = n := by
  simp [Bytes6.firstN, h]

/-! OP and ARG of each command word with operands. -/

@[simp] theorem initWord_op : ∀ a7 : BitVec 7, (initWord a7).extractLsb' 12 4 = 1 := by decide
@[simp] theorem initWord_arg : ∀ a7 : BitVec 7, (initWord a7).extractLsb' 0 12 = a7.setWidth 12 := by decide
@[simp] theorem readWord_op : ∀ mask : BitVec 3, (readWord mask).extractLsb' 12 4 = 2 := by decide
@[simp] theorem readWord_arg : ∀ mask : BitVec 3, (readWord mask).extractLsb' 0 12 = mask.setWidth 12 <<< 8 := by decide
@[simp] theorem setThreshWord_op : ∀ t : Byte, (setThreshWord t).extractLsb' 12 4 = 3 := by decide
@[simp] theorem setThreshWord_arg : ∀ t : Byte, (setThreshWord t).extractLsb' 0 12 = t.setWidth 12 := by decide

theorem idMatch_iff (b : Byte) : idMatch b = true ↔ b = 0xE5 := by simp [idMatch]

theorem anyEnabled_iff (b : Byte) : anyEnabled b = true ↔ b ≠ 0x00 := by simp [anyEnabled]

end Sys2Proof.Machine
end

