-- ==== Sys2Proof/Laws/State.lean ====
section
/-! SUPPORT. What each named update of the state leaves in each field, so that no proof unfolds a record update. -/

namespace Sys2Proof.Machine

variable (s : State)

@[simp] theorem accept_outX (w : CmdWord) : (accept w s).outX = s.outX := rfl
@[simp] theorem accept_outY (w : CmdWord) : (accept w s).outY = s.outY := rfl
@[simp] theorem accept_outZ (w : CmdWord) : (accept w s).outZ = s.outZ := rfl
@[simp] theorem accept_devaddr (w : CmdWord) : (accept w s).devaddr = s.devaddr := rfl
@[simp] theorem accept_rdy (w : CmdWord) : (accept w s).rdy = s.rdy := rfl
@[simp] theorem accept_busy (w : CmdWord) : (accept w s).busy = true := rfl
@[simp] theorem accept_op (w : CmdWord) : (accept w s).op = w.extractLsb' 12 4 := rfl
@[simp] theorem accept_arg (w : CmdWord) : (accept w s).arg = w.extractLsb' 0 12 := rfl
@[simp] theorem accept_stepNo (w : CmdWord) : (accept w s).stepNo = 0 := rfl
@[simp] theorem accept_acc (w : CmdWord) : (accept w s).acc = s.acc := rfl
@[simp] theorem accept_buf (w : CmdWord) : (accept w s).buf = s.buf := rfl
@[simp] theorem accept_respOk (w : CmdWord) : (accept w s).respOk = s.respOk := rfl
@[simp] theorem accept_respEv (w : CmdWord) : (accept w s).respEv = s.respEv := rfl
@[simp] theorem accept_req (w : CmdWord) : (accept w s).req = none := rfl
@[simp] theorem accept_bus (w : CmdWord) : (accept w s).bus = s.bus := rfl
@[simp] theorem accept_inbox (w : CmdWord) : (accept w s).inbox = s.inbox := rfl
@[simp] theorem accept_trace (w : CmdWord) : (accept w s).trace = s.trace := rfl
@[simp] theorem accept_delivered (w : CmdWord) : (accept w s).delivered = s.delivered := rfl
@[simp] theorem accept_draws (w : CmdWord) : (accept w s).draws = s.draws := rfl

@[simp] theorem complete_outX (ok : Bool) (ev : BitVec 3) : (complete ok ev s).outX = s.outX := rfl
@[simp] theorem complete_outY (ok : Bool) (ev : BitVec 3) : (complete ok ev s).outY = s.outY := rfl
@[simp] theorem complete_outZ (ok : Bool) (ev : BitVec 3) : (complete ok ev s).outZ = s.outZ := rfl
@[simp] theorem complete_devaddr (ok : Bool) (ev : BitVec 3) : (complete ok ev s).devaddr = s.devaddr := rfl
@[simp] theorem complete_rdy (ok : Bool) (ev : BitVec 3) : (complete ok ev s).rdy = s.rdy := rfl
@[simp] theorem complete_busy (ok : Bool) (ev : BitVec 3) : (complete ok ev s).busy = false := rfl
@[simp] theorem complete_op (ok : Bool) (ev : BitVec 3) : (complete ok ev s).op = s.op := rfl
@[simp] theorem complete_arg (ok : Bool) (ev : BitVec 3) : (complete ok ev s).arg = s.arg := rfl
@[simp] theorem complete_stepNo (ok : Bool) (ev : BitVec 3) : (complete ok ev s).stepNo = 0 := rfl
@[simp] theorem complete_acc (ok : Bool) (ev : BitVec 3) : (complete ok ev s).acc = s.acc := rfl
@[simp] theorem complete_buf (ok : Bool) (ev : BitVec 3) : (complete ok ev s).buf = s.buf := rfl
@[simp] theorem complete_respOk (ok : Bool) (ev : BitVec 3) : (complete ok ev s).respOk = ok := rfl
@[simp] theorem complete_respEv (ok : Bool) (ev : BitVec 3) : (complete ok ev s).respEv = ev := rfl
@[simp] theorem complete_req (ok : Bool) (ev : BitVec 3) : (complete ok ev s).req = s.req := rfl
@[simp] theorem complete_bus (ok : Bool) (ev : BitVec 3) : (complete ok ev s).bus = s.bus := rfl
@[simp] theorem complete_inbox (ok : Bool) (ev : BitVec 3) : (complete ok ev s).inbox = s.inbox := rfl
@[simp] theorem complete_trace (ok : Bool) (ev : BitVec 3) : (complete ok ev s).trace = s.trace := rfl
@[simp] theorem complete_delivered (ok : Bool) (ev : BitVec 3) : (complete ok ev s).delivered = s.delivered ++ [.response ok ev] := rfl
@[simp] theorem complete_draws (ok : Bool) (ev : BitVec 3) : (complete ok ev s).draws = s.draws := rfl

@[simp] theorem await_outX (k : BitVec 4) (r : Request) : (await k r s).outX = s.outX := rfl
@[simp] theorem await_outY (k : BitVec 4) (r : Request) : (await k r s).outY = s.outY := rfl
@[simp] theorem await_outZ (k : BitVec 4) (r : Request) : (await k r s).outZ = s.outZ := rfl
@[simp] theorem await_devaddr (k : BitVec 4) (r : Request) : (await k r s).devaddr = s.devaddr := rfl
@[simp] theorem await_rdy (k : BitVec 4) (r : Request) : (await k r s).rdy = s.rdy := rfl
@[simp] theorem await_busy (k : BitVec 4) (r : Request) : (await k r s).busy = s.busy := rfl
@[simp] theorem await_op (k : BitVec 4) (r : Request) : (await k r s).op = s.op := rfl
@[simp] theorem await_arg (k : BitVec 4) (r : Request) : (await k r s).arg = s.arg := rfl
@[simp] theorem await_stepNo (k : BitVec 4) (r : Request) : (await k r s).stepNo = k := rfl
@[simp] theorem await_acc (k : BitVec 4) (r : Request) : (await k r s).acc = s.acc := rfl
@[simp] theorem await_buf (k : BitVec 4) (r : Request) : (await k r s).buf = s.buf := rfl
@[simp] theorem await_respOk (k : BitVec 4) (r : Request) : (await k r s).respOk = s.respOk := rfl
@[simp] theorem await_respEv (k : BitVec 4) (r : Request) : (await k r s).respEv = s.respEv := rfl
@[simp] theorem await_req (k : BitVec 4) (r : Request) : (await k r s).req = some r := rfl
@[simp] theorem await_bus (k : BitVec 4) (r : Request) : (await k r s).bus = s.bus := rfl
@[simp] theorem await_inbox (k : BitVec 4) (r : Request) : (await k r s).inbox = s.inbox := rfl
@[simp] theorem await_trace (k : BitVec 4) (r : Request) : (await k r s).trace = s.trace := rfl
@[simp] theorem await_delivered (k : BitVec 4) (r : Request) : (await k r s).delivered = s.delivered := rfl
@[simp] theorem await_draws (k : BitVec 4) (r : Request) : (await k r s).draws = s.draws := rfl

@[simp] theorem answered_outX (e : Event) (t : Transport) : (answered e t s).outX = s.outX := rfl
@[simp] theorem answered_outY (e : Event) (t : Transport) : (answered e t s).outY = s.outY := rfl
@[simp] theorem answered_outZ (e : Event) (t : Transport) : (answered e t s).outZ = s.outZ := rfl
@[simp] theorem answered_devaddr (e : Event) (t : Transport) : (answered e t s).devaddr = s.devaddr := rfl
@[simp] theorem answered_rdy (e : Event) (t : Transport) : (answered e t s).rdy = s.rdy := rfl
@[simp] theorem answered_busy (e : Event) (t : Transport) : (answered e t s).busy = s.busy := rfl
@[simp] theorem answered_op (e : Event) (t : Transport) : (answered e t s).op = s.op := rfl
@[simp] theorem answered_arg (e : Event) (t : Transport) : (answered e t s).arg = s.arg := rfl
@[simp] theorem answered_stepNo (e : Event) (t : Transport) : (answered e t s).stepNo = s.stepNo := rfl
@[simp] theorem answered_acc (e : Event) (t : Transport) : (answered e t s).acc = s.acc := rfl
@[simp] theorem answered_buf (e : Event) (t : Transport) : (answered e t s).buf = s.buf := rfl
@[simp] theorem answered_respOk (e : Event) (t : Transport) : (answered e t s).respOk = s.respOk := rfl
@[simp] theorem answered_respEv (e : Event) (t : Transport) : (answered e t s).respEv = s.respEv := rfl
@[simp] theorem answered_req (e : Event) (t : Transport) : (answered e t s).req = none := rfl
@[simp] theorem answered_bus (e : Event) (t : Transport) : (answered e t s).bus = t := rfl
@[simp] theorem answered_inbox (e : Event) (t : Transport) : (answered e t s).inbox = s.inbox := rfl
@[simp] theorem answered_trace (e : Event) (t : Transport) : (answered e t s).trace = s.trace ++ [e] := rfl
@[simp] theorem answered_delivered (e : Event) (t : Transport) : (answered e t s).delivered = s.delivered := rfl
@[simp] theorem answered_draws (e : Event) (t : Transport) : (answered e t s).draws = s.draws := rfl

@[simp] theorem fillBuf_outX (n : Nat) (d : Bytes6) : (fillBuf n d s).outX = s.outX := rfl
@[simp] theorem fillBuf_outY (n : Nat) (d : Bytes6) : (fillBuf n d s).outY = s.outY := rfl
@[simp] theorem fillBuf_outZ (n : Nat) (d : Bytes6) : (fillBuf n d s).outZ = s.outZ := rfl
@[simp] theorem fillBuf_devaddr (n : Nat) (d : Bytes6) : (fillBuf n d s).devaddr = s.devaddr := rfl
@[simp] theorem fillBuf_rdy (n : Nat) (d : Bytes6) : (fillBuf n d s).rdy = s.rdy := rfl
@[simp] theorem fillBuf_busy (n : Nat) (d : Bytes6) : (fillBuf n d s).busy = s.busy := rfl
@[simp] theorem fillBuf_op (n : Nat) (d : Bytes6) : (fillBuf n d s).op = s.op := rfl
@[simp] theorem fillBuf_arg (n : Nat) (d : Bytes6) : (fillBuf n d s).arg = s.arg := rfl
@[simp] theorem fillBuf_stepNo (n : Nat) (d : Bytes6) : (fillBuf n d s).stepNo = s.stepNo := rfl
@[simp] theorem fillBuf_acc (n : Nat) (d : Bytes6) : (fillBuf n d s).acc = s.acc := rfl
@[simp] theorem fillBuf_buf (n : Nat) (d : Bytes6) : (fillBuf n d s).buf = Bytes6.fill n d s.buf := rfl
@[simp] theorem fillBuf_respOk (n : Nat) (d : Bytes6) : (fillBuf n d s).respOk = s.respOk := rfl
@[simp] theorem fillBuf_respEv (n : Nat) (d : Bytes6) : (fillBuf n d s).respEv = s.respEv := rfl
@[simp] theorem fillBuf_req (n : Nat) (d : Bytes6) : (fillBuf n d s).req = s.req := rfl
@[simp] theorem fillBuf_bus (n : Nat) (d : Bytes6) : (fillBuf n d s).bus = s.bus := rfl
@[simp] theorem fillBuf_inbox (n : Nat) (d : Bytes6) : (fillBuf n d s).inbox = s.inbox := rfl
@[simp] theorem fillBuf_trace (n : Nat) (d : Bytes6) : (fillBuf n d s).trace = s.trace := rfl
@[simp] theorem fillBuf_delivered (n : Nat) (d : Bytes6) : (fillBuf n d s).delivered = s.delivered := rfl
@[simp] theorem fillBuf_draws (n : Nat) (d : Bytes6) : (fillBuf n d s).draws = s.draws := rfl

@[simp] theorem scrambleBuf_outX : (scrambleBuf s).outX = s.outX := rfl
@[simp] theorem scrambleBuf_outY : (scrambleBuf s).outY = s.outY := rfl
@[simp] theorem scrambleBuf_outZ : (scrambleBuf s).outZ = s.outZ := rfl
@[simp] theorem scrambleBuf_devaddr : (scrambleBuf s).devaddr = s.devaddr := rfl
@[simp] theorem scrambleBuf_rdy : (scrambleBuf s).rdy = s.rdy := rfl
@[simp] theorem scrambleBuf_busy : (scrambleBuf s).busy = s.busy := rfl
@[simp] theorem scrambleBuf_op : (scrambleBuf s).op = s.op := rfl
@[simp] theorem scrambleBuf_arg : (scrambleBuf s).arg = s.arg := rfl
@[simp] theorem scrambleBuf_stepNo : (scrambleBuf s).stepNo = s.stepNo := rfl
@[simp] theorem scrambleBuf_acc : (scrambleBuf s).acc = s.acc := rfl
@[simp] theorem scrambleBuf_buf : (scrambleBuf s).buf = Config.failedRead s.draws := rfl
@[simp] theorem scrambleBuf_respOk : (scrambleBuf s).respOk = s.respOk := rfl
@[simp] theorem scrambleBuf_respEv : (scrambleBuf s).respEv = s.respEv := rfl
@[simp] theorem scrambleBuf_req : (scrambleBuf s).req = s.req := rfl
@[simp] theorem scrambleBuf_bus : (scrambleBuf s).bus = s.bus := rfl
@[simp] theorem scrambleBuf_inbox : (scrambleBuf s).inbox = s.inbox := rfl
@[simp] theorem scrambleBuf_trace : (scrambleBuf s).trace = s.trace := rfl
@[simp] theorem scrambleBuf_delivered : (scrambleBuf s).delivered = s.delivered := rfl
@[simp] theorem scrambleBuf_draws : (scrambleBuf s).draws = s.draws + 1 := rfl

@[simp] theorem foldRdy_outX (ok : Bool) : (foldRdy ok s).outX = s.outX := rfl
@[simp] theorem foldRdy_outY (ok : Bool) : (foldRdy ok s).outY = s.outY := rfl
@[simp] theorem foldRdy_outZ (ok : Bool) : (foldRdy ok s).outZ = s.outZ := rfl
@[simp] theorem foldRdy_devaddr (ok : Bool) : (foldRdy ok s).devaddr = s.devaddr := rfl
@[simp] theorem foldRdy_rdy (ok : Bool) : (foldRdy ok s).rdy = (s.rdy && ok) := rfl
@[simp] theorem foldRdy_busy (ok : Bool) : (foldRdy ok s).busy = s.busy := rfl
@[simp] theorem foldRdy_op (ok : Bool) : (foldRdy ok s).op = s.op := rfl
@[simp] theorem foldRdy_arg (ok : Bool) : (foldRdy ok s).arg = s.arg := rfl
@[simp] theorem foldRdy_stepNo (ok : Bool) : (foldRdy ok s).stepNo = s.stepNo := rfl
@[simp] theorem foldRdy_acc (ok : Bool) : (foldRdy ok s).acc = s.acc := rfl
@[simp] theorem foldRdy_buf (ok : Bool) : (foldRdy ok s).buf = s.buf := rfl
@[simp] theorem foldRdy_respOk (ok : Bool) : (foldRdy ok s).respOk = s.respOk := rfl
@[simp] theorem foldRdy_respEv (ok : Bool) : (foldRdy ok s).respEv = s.respEv := rfl
@[simp] theorem foldRdy_req (ok : Bool) : (foldRdy ok s).req = s.req := rfl
@[simp] theorem foldRdy_bus (ok : Bool) : (foldRdy ok s).bus = s.bus := rfl
@[simp] theorem foldRdy_inbox (ok : Bool) : (foldRdy ok s).inbox = s.inbox := rfl
@[simp] theorem foldRdy_trace (ok : Bool) : (foldRdy ok s).trace = s.trace := rfl
@[simp] theorem foldRdy_delivered (ok : Bool) : (foldRdy ok s).delivered = s.delivered := rfl
@[simp] theorem foldRdy_draws (ok : Bool) : (foldRdy ok s).draws = s.draws := rfl

@[simp] theorem foldAcc_outX (ok : Bool) : (foldAcc ok s).outX = s.outX := rfl
@[simp] theorem foldAcc_outY (ok : Bool) : (foldAcc ok s).outY = s.outY := rfl
@[simp] theorem foldAcc_outZ (ok : Bool) : (foldAcc ok s).outZ = s.outZ := rfl
@[simp] theorem foldAcc_devaddr (ok : Bool) : (foldAcc ok s).devaddr = s.devaddr := rfl
@[simp] theorem foldAcc_rdy (ok : Bool) : (foldAcc ok s).rdy = s.rdy := rfl
@[simp] theorem foldAcc_busy (ok : Bool) : (foldAcc ok s).busy = s.busy := rfl
@[simp] theorem foldAcc_op (ok : Bool) : (foldAcc ok s).op = s.op := rfl
@[simp] theorem foldAcc_arg (ok : Bool) : (foldAcc ok s).arg = s.arg := rfl
@[simp] theorem foldAcc_stepNo (ok : Bool) : (foldAcc ok s).stepNo = s.stepNo := rfl
@[simp] theorem foldAcc_acc (ok : Bool) : (foldAcc ok s).acc = (s.acc && ok) := rfl
@[simp] theorem foldAcc_buf (ok : Bool) : (foldAcc ok s).buf = s.buf := rfl
@[simp] theorem foldAcc_respOk (ok : Bool) : (foldAcc ok s).respOk = s.respOk := rfl
@[simp] theorem foldAcc_respEv (ok : Bool) : (foldAcc ok s).respEv = s.respEv := rfl
@[simp] theorem foldAcc_req (ok : Bool) : (foldAcc ok s).req = s.req := rfl
@[simp] theorem foldAcc_bus (ok : Bool) : (foldAcc ok s).bus = s.bus := rfl
@[simp] theorem foldAcc_inbox (ok : Bool) : (foldAcc ok s).inbox = s.inbox := rfl
@[simp] theorem foldAcc_trace (ok : Bool) : (foldAcc ok s).trace = s.trace := rfl
@[simp] theorem foldAcc_delivered (ok : Bool) : (foldAcc ok s).delivered = s.delivered := rfl
@[simp] theorem foldAcc_draws (ok : Bool) : (foldAcc ok s).draws = s.draws := rfl

@[simp] theorem beginInit_outX (a7 : BitVec 7) : (beginInit a7 s).outX = s.outX := rfl
@[simp] theorem beginInit_outY (a7 : BitVec 7) : (beginInit a7 s).outY = s.outY := rfl
@[simp] theorem beginInit_outZ (a7 : BitVec 7) : (beginInit a7 s).outZ = s.outZ := rfl
@[simp] theorem beginInit_devaddr (a7 : BitVec 7) : (beginInit a7 s).devaddr = busForm a7 := rfl
@[simp] theorem beginInit_rdy (a7 : BitVec 7) : (beginInit a7 s).rdy = false := rfl
@[simp] theorem beginInit_busy (a7 : BitVec 7) : (beginInit a7 s).busy = s.busy := rfl
@[simp] theorem beginInit_op (a7 : BitVec 7) : (beginInit a7 s).op = s.op := rfl
@[simp] theorem beginInit_arg (a7 : BitVec 7) : (beginInit a7 s).arg = s.arg := rfl
@[simp] theorem beginInit_stepNo (a7 : BitVec 7) : (beginInit a7 s).stepNo = s.stepNo := rfl
@[simp] theorem beginInit_acc (a7 : BitVec 7) : (beginInit a7 s).acc = s.acc := rfl
@[simp] theorem beginInit_buf (a7 : BitVec 7) : (beginInit a7 s).buf = s.buf := rfl
@[simp] theorem beginInit_respOk (a7 : BitVec 7) : (beginInit a7 s).respOk = s.respOk := rfl
@[simp] theorem beginInit_respEv (a7 : BitVec 7) : (beginInit a7 s).respEv = s.respEv := rfl
@[simp] theorem beginInit_req (a7 : BitVec 7) : (beginInit a7 s).req = s.req := rfl
@[simp] theorem beginInit_bus (a7 : BitVec 7) : (beginInit a7 s).bus = s.bus := rfl
@[simp] theorem beginInit_inbox (a7 : BitVec 7) : (beginInit a7 s).inbox = s.inbox := rfl
@[simp] theorem beginInit_trace (a7 : BitVec 7) : (beginInit a7 s).trace = s.trace := rfl
@[simp] theorem beginInit_delivered (a7 : BitVec 7) : (beginInit a7 s).delivered = s.delivered := rfl
@[simp] theorem beginInit_draws (a7 : BitVec 7) : (beginInit a7 s).draws = s.draws := rfl

@[simp] theorem setReady_outX : (setReady s).outX = s.outX := rfl
@[simp] theorem setReady_outY : (setReady s).outY = s.outY := rfl
@[simp] theorem setReady_outZ : (setReady s).outZ = s.outZ := rfl
@[simp] theorem setReady_devaddr : (setReady s).devaddr = s.devaddr := rfl
@[simp] theorem setReady_rdy : (setReady s).rdy = true := rfl
@[simp] theorem setReady_busy : (setReady s).busy = s.busy := rfl
@[simp] theorem setReady_op : (setReady s).op = s.op := rfl
@[simp] theorem setReady_arg : (setReady s).arg = s.arg := rfl
@[simp] theorem setReady_stepNo : (setReady s).stepNo = s.stepNo := rfl
@[simp] theorem setReady_acc : (setReady s).acc = s.acc := rfl
@[simp] theorem setReady_buf : (setReady s).buf = s.buf := rfl
@[simp] theorem setReady_respOk : (setReady s).respOk = s.respOk := rfl
@[simp] theorem setReady_respEv : (setReady s).respEv = s.respEv := rfl
@[simp] theorem setReady_req : (setReady s).req = s.req := rfl
@[simp] theorem setReady_bus : (setReady s).bus = s.bus := rfl
@[simp] theorem setReady_inbox : (setReady s).inbox = s.inbox := rfl
@[simp] theorem setReady_trace : (setReady s).trace = s.trace := rfl
@[simp] theorem setReady_delivered : (setReady s).delivered = s.delivered := rfl
@[simp] theorem setReady_draws : (setReady s).draws = s.draws := rfl

@[simp] theorem setAcc_outX : (setAcc s).outX = s.outX := rfl
@[simp] theorem setAcc_outY : (setAcc s).outY = s.outY := rfl
@[simp] theorem setAcc_outZ : (setAcc s).outZ = s.outZ := rfl
@[simp] theorem setAcc_devaddr : (setAcc s).devaddr = s.devaddr := rfl
@[simp] theorem setAcc_rdy : (setAcc s).rdy = s.rdy := rfl
@[simp] theorem setAcc_busy : (setAcc s).busy = s.busy := rfl
@[simp] theorem setAcc_op : (setAcc s).op = s.op := rfl
@[simp] theorem setAcc_arg : (setAcc s).arg = s.arg := rfl
@[simp] theorem setAcc_stepNo : (setAcc s).stepNo = s.stepNo := rfl
@[simp] theorem setAcc_acc : (setAcc s).acc = true := rfl
@[simp] theorem setAcc_buf : (setAcc s).buf = s.buf := rfl
@[simp] theorem setAcc_respOk : (setAcc s).respOk = s.respOk := rfl
@[simp] theorem setAcc_respEv : (setAcc s).respEv = s.respEv := rfl
@[simp] theorem setAcc_req : (setAcc s).req = s.req := rfl
@[simp] theorem setAcc_bus : (setAcc s).bus = s.bus := rfl
@[simp] theorem setAcc_inbox : (setAcc s).inbox = s.inbox := rfl
@[simp] theorem setAcc_trace : (setAcc s).trace = s.trace := rfl
@[simp] theorem setAcc_delivered : (setAcc s).delivered = s.delivered := rfl
@[simp] theorem setAcc_draws : (setAcc s).draws = s.draws := rfl

@[simp] theorem writeSlots_outX (mask : BitVec 3) : (writeSlots mask s).outX = if mask.getLsbD 0 then (unpackXyz s.buf).1 else s.outX := rfl
@[simp] theorem writeSlots_outY (mask : BitVec 3) : (writeSlots mask s).outY = if mask.getLsbD 1 then (unpackXyz s.buf).2.1 else s.outY := rfl
@[simp] theorem writeSlots_outZ (mask : BitVec 3) : (writeSlots mask s).outZ = if mask.getLsbD 2 then (unpackXyz s.buf).2.2 else s.outZ := rfl
@[simp] theorem writeSlots_devaddr (mask : BitVec 3) : (writeSlots mask s).devaddr = s.devaddr := rfl
@[simp] theorem writeSlots_rdy (mask : BitVec 3) : (writeSlots mask s).rdy = s.rdy := rfl
@[simp] theorem writeSlots_busy (mask : BitVec 3) : (writeSlots mask s).busy = s.busy := rfl
@[simp] theorem writeSlots_op (mask : BitVec 3) : (writeSlots mask s).op = s.op := rfl
@[simp] theorem writeSlots_arg (mask : BitVec 3) : (writeSlots mask s).arg = s.arg := rfl
@[simp] theorem writeSlots_stepNo (mask : BitVec 3) : (writeSlots mask s).stepNo = s.stepNo := rfl
@[simp] theorem writeSlots_acc (mask : BitVec 3) : (writeSlots mask s).acc = s.acc := rfl
@[simp] theorem writeSlots_buf (mask : BitVec 3) : (writeSlots mask s).buf = s.buf := rfl
@[simp] theorem writeSlots_respOk (mask : BitVec 3) : (writeSlots mask s).respOk = s.respOk := rfl
@[simp] theorem writeSlots_respEv (mask : BitVec 3) : (writeSlots mask s).respEv = s.respEv := rfl
@[simp] theorem writeSlots_req (mask : BitVec 3) : (writeSlots mask s).req = s.req := rfl
@[simp] theorem writeSlots_bus (mask : BitVec 3) : (writeSlots mask s).bus = s.bus := rfl
@[simp] theorem writeSlots_inbox (mask : BitVec 3) : (writeSlots mask s).inbox = s.inbox := rfl
@[simp] theorem writeSlots_trace (mask : BitVec 3) : (writeSlots mask s).trace = s.trace := rfl
@[simp] theorem writeSlots_delivered (mask : BitVec 3) : (writeSlots mask s).delivered = s.delivered := rfl
@[simp] theorem writeSlots_draws (mask : BitVec 3) : (writeSlots mask s).draws = s.draws := rfl

@[simp] theorem waitSettle_outX (P : Params) : (waitSettle P s).outX = s.outX := rfl
@[simp] theorem waitSettle_outY (P : Params) : (waitSettle P s).outY = s.outY := rfl
@[simp] theorem waitSettle_outZ (P : Params) : (waitSettle P s).outZ = s.outZ := rfl
@[simp] theorem waitSettle_devaddr (P : Params) : (waitSettle P s).devaddr = s.devaddr := rfl
@[simp] theorem waitSettle_rdy (P : Params) : (waitSettle P s).rdy = s.rdy := rfl
@[simp] theorem waitSettle_busy (P : Params) : (waitSettle P s).busy = s.busy := rfl
@[simp] theorem waitSettle_op (P : Params) : (waitSettle P s).op = s.op := rfl
@[simp] theorem waitSettle_arg (P : Params) : (waitSettle P s).arg = s.arg := rfl
@[simp] theorem waitSettle_stepNo (P : Params) : (waitSettle P s).stepNo = s.stepNo := rfl
@[simp] theorem waitSettle_acc (P : Params) : (waitSettle P s).acc = s.acc := rfl
@[simp] theorem waitSettle_buf (P : Params) : (waitSettle P s).buf = s.buf := rfl
@[simp] theorem waitSettle_respOk (P : Params) : (waitSettle P s).respOk = s.respOk := rfl
@[simp] theorem waitSettle_respEv (P : Params) : (waitSettle P s).respEv = s.respEv := rfl
@[simp] theorem waitSettle_req (P : Params) : (waitSettle P s).req = s.req := rfl
@[simp] theorem waitSettle_bus (P : Params) : (waitSettle P s).bus = s.bus := rfl
@[simp] theorem waitSettle_inbox (P : Params) : (waitSettle P s).inbox = s.inbox := rfl
@[simp] theorem waitSettle_trace (P : Params) : (waitSettle P s).trace = s.trace ++ [.wait P.settle] := rfl
@[simp] theorem waitSettle_delivered (P : Params) : (waitSettle P s).delivered = s.delivered := rfl
@[simp] theorem waitSettle_draws (P : Params) : (waitSettle P s).draws = s.draws := rfl

@[simp] theorem deliverStatus_outX (ok : Bool) : (deliverStatus ok s).outX = s.outX := rfl
@[simp] theorem deliverStatus_outY (ok : Bool) : (deliverStatus ok s).outY = s.outY := rfl
@[simp] theorem deliverStatus_outZ (ok : Bool) : (deliverStatus ok s).outZ = s.outZ := rfl
@[simp] theorem deliverStatus_devaddr (ok : Bool) : (deliverStatus ok s).devaddr = s.devaddr := rfl
@[simp] theorem deliverStatus_rdy (ok : Bool) : (deliverStatus ok s).rdy = s.rdy := rfl
@[simp] theorem deliverStatus_busy (ok : Bool) : (deliverStatus ok s).busy = s.busy := rfl
@[simp] theorem deliverStatus_op (ok : Bool) : (deliverStatus ok s).op = s.op := rfl
@[simp] theorem deliverStatus_arg (ok : Bool) : (deliverStatus ok s).arg = s.arg := rfl
@[simp] theorem deliverStatus_stepNo (ok : Bool) : (deliverStatus ok s).stepNo = s.stepNo := rfl
@[simp] theorem deliverStatus_acc (ok : Bool) : (deliverStatus ok s).acc = s.acc := rfl
@[simp] theorem deliverStatus_buf (ok : Bool) : (deliverStatus ok s).buf = s.buf := rfl
@[simp] theorem deliverStatus_respOk (ok : Bool) : (deliverStatus ok s).respOk = s.respOk := rfl
@[simp] theorem deliverStatus_respEv (ok : Bool) : (deliverStatus ok s).respEv = s.respEv := rfl
@[simp] theorem deliverStatus_req (ok : Bool) : (deliverStatus ok s).req = s.req := rfl
@[simp] theorem deliverStatus_bus (ok : Bool) : (deliverStatus ok s).bus = s.bus := rfl
@[simp] theorem deliverStatus_inbox (ok : Bool) : (deliverStatus ok s).inbox = s.inbox := rfl
@[simp] theorem deliverStatus_trace (ok : Bool) : (deliverStatus ok s).trace = s.trace := rfl
@[simp] theorem deliverStatus_delivered (ok : Bool) : (deliverStatus ok s).delivered = s.delivered ++ [.status ok] := rfl
@[simp] theorem deliverStatus_draws (ok : Bool) : (deliverStatus ok s).draws = s.draws := rfl

@[simp] theorem goto_outX (k : BitVec 4) : (goto k s).outX = s.outX := rfl
@[simp] theorem goto_outY (k : BitVec 4) : (goto k s).outY = s.outY := rfl
@[simp] theorem goto_outZ (k : BitVec 4) : (goto k s).outZ = s.outZ := rfl
@[simp] theorem goto_devaddr (k : BitVec 4) : (goto k s).devaddr = s.devaddr := rfl
@[simp] theorem goto_rdy (k : BitVec 4) : (goto k s).rdy = s.rdy := rfl
@[simp] theorem goto_busy (k : BitVec 4) : (goto k s).busy = s.busy := rfl
@[simp] theorem goto_op (k : BitVec 4) : (goto k s).op = s.op := rfl
@[simp] theorem goto_arg (k : BitVec 4) : (goto k s).arg = s.arg := rfl
@[simp] theorem goto_stepNo (k : BitVec 4) : (goto k s).stepNo = k := rfl
@[simp] theorem goto_acc (k : BitVec 4) : (goto k s).acc = s.acc := rfl
@[simp] theorem goto_buf (k : BitVec 4) : (goto k s).buf = s.buf := rfl
@[simp] theorem goto_respOk (k : BitVec 4) : (goto k s).respOk = s.respOk := rfl
@[simp] theorem goto_respEv (k : BitVec 4) : (goto k s).respEv = s.respEv := rfl
@[simp] theorem goto_req (k : BitVec 4) : (goto k s).req = s.req := rfl
@[simp] theorem goto_bus (k : BitVec 4) : (goto k s).bus = s.bus := rfl
@[simp] theorem goto_inbox (k : BitVec 4) : (goto k s).inbox = s.inbox := rfl
@[simp] theorem goto_trace (k : BitVec 4) : (goto k s).trace = s.trace := rfl
@[simp] theorem goto_delivered (k : BitVec 4) : (goto k s).delivered = s.delivered := rfl
@[simp] theorem goto_draws (k : BitVec 4) : (goto k s).draws = s.draws := rfl

@[simp] theorem withAnswers_outX (more : List Answer) : (withAnswers more s).outX = s.outX := rfl
@[simp] theorem withAnswers_outY (more : List Answer) : (withAnswers more s).outY = s.outY := rfl
@[simp] theorem withAnswers_outZ (more : List Answer) : (withAnswers more s).outZ = s.outZ := rfl
@[simp] theorem withAnswers_devaddr (more : List Answer) : (withAnswers more s).devaddr = s.devaddr := rfl
@[simp] theorem withAnswers_rdy (more : List Answer) : (withAnswers more s).rdy = s.rdy := rfl
@[simp] theorem withAnswers_busy (more : List Answer) : (withAnswers more s).busy = s.busy := rfl
@[simp] theorem withAnswers_op (more : List Answer) : (withAnswers more s).op = s.op := rfl
@[simp] theorem withAnswers_arg (more : List Answer) : (withAnswers more s).arg = s.arg := rfl
@[simp] theorem withAnswers_stepNo (more : List Answer) : (withAnswers more s).stepNo = s.stepNo := rfl
@[simp] theorem withAnswers_acc (more : List Answer) : (withAnswers more s).acc = s.acc := rfl
@[simp] theorem withAnswers_buf (more : List Answer) : (withAnswers more s).buf = s.buf := rfl
@[simp] theorem withAnswers_respOk (more : List Answer) : (withAnswers more s).respOk = s.respOk := rfl
@[simp] theorem withAnswers_respEv (more : List Answer) : (withAnswers more s).respEv = s.respEv := rfl
@[simp] theorem withAnswers_req (more : List Answer) : (withAnswers more s).req = s.req := rfl
@[simp] theorem withAnswers_bus (more : List Answer) : (withAnswers more s).bus = s.bus.extend more := rfl
@[simp] theorem withAnswers_inbox (more : List Answer) : (withAnswers more s).inbox = s.inbox := rfl
@[simp] theorem withAnswers_trace (more : List Answer) : (withAnswers more s).trace = s.trace := rfl
@[simp] theorem withAnswers_delivered (more : List Answer) : (withAnswers more s).delivered = s.delivered := rfl
@[simp] theorem withAnswers_draws (more : List Answer) : (withAnswers more s).draws = s.draws := rfl

@[simp] theorem takeInput_outX (rest : List HostEvent) : (takeInput rest s).outX = s.outX := rfl
@[simp] theorem takeInput_outY (rest : List HostEvent) : (takeInput rest s).outY = s.outY := rfl
@[simp] theorem takeInput_outZ (rest : List HostEvent) : (takeInput rest s).outZ = s.outZ := rfl
@[simp] theorem takeInput_devaddr (rest : List HostEvent) : (takeInput rest s).devaddr = s.devaddr := rfl
@[simp] theorem takeInput_rdy (rest : List HostEvent) : (takeInput rest s).rdy = s.rdy := rfl
@[simp] theorem takeInput_busy (rest : List HostEvent) : (takeInput rest s).busy = s.busy := rfl
@[simp] theorem takeInput_op (rest : List HostEvent) : (takeInput rest s).op = s.op := rfl
@[simp] theorem takeInput_arg (rest : List HostEvent) : (takeInput rest s).arg = s.arg := rfl
@[simp] theorem takeInput_stepNo (rest : List HostEvent) : (takeInput rest s).stepNo = s.stepNo := rfl
@[simp] theorem takeInput_acc (rest : List HostEvent) : (takeInput rest s).acc = s.acc := rfl
@[simp] theorem takeInput_buf (rest : List HostEvent) : (takeInput rest s).buf = s.buf := rfl
@[simp] theorem takeInput_respOk (rest : List HostEvent) : (takeInput rest s).respOk = s.respOk := rfl
@[simp] theorem takeInput_respEv (rest : List HostEvent) : (takeInput rest s).respEv = s.respEv := rfl
@[simp] theorem takeInput_req (rest : List HostEvent) : (takeInput rest s).req = s.req := rfl
@[simp] theorem takeInput_bus (rest : List HostEvent) : (takeInput rest s).bus = s.bus := rfl
@[simp] theorem takeInput_inbox (rest : List HostEvent) : (takeInput rest s).inbox = rest := rfl
@[simp] theorem takeInput_trace (rest : List HostEvent) : (takeInput rest s).trace = s.trace := rfl
@[simp] theorem takeInput_delivered (rest : List HostEvent) : (takeInput rest s).delivered = s.delivered := rfl
@[simp] theorem takeInput_draws (rest : List HostEvent) : (takeInput rest s).draws = s.draws := rfl

end Sys2Proof.Machine
end

