-- ==== Sys2Proof/Laws/Ops.lean ====
section
/-! SUPPORT. What each shared operation can do, said once. An operation that needs an answer has an induction rule
(`_ind`: what holds of the waiting state and of every way on holds of the result) and equations for a known answer. -/

namespace Sys2Proof.Machine

/-! ### The transport primitives -/

theorem busWrite_none {k : BitVec 4} {bytes : List Byte} {s : State} {go : Bool → State → State}
    (h : s.bus.respond (.write s.devaddr bytes) = none) :
    busWrite k bytes s go = await k (.write s.devaddr bytes) s := by
  unfold busWrite; rw [h]

theorem busWrite_some {k : BitVec 4} {bytes : List Byte} {s : State} {go : Bool → State → State} {a : Answer}
    {t : Transport} (h : s.bus.respond (.write s.devaddr bytes) = some (a, t)) :
    busWrite k bytes s go = go a.ok (answered (.write s.devaddr bytes a.ok) t s) := by
  unfold busWrite; rw [h]

/-- `BusWrite` waits at step `k`, or goes on with the status the transport gave. -/
theorem busWrite_ind {Q : State → Prop} {k : BitVec 4} {bytes : List Byte} {s : State} {go : Bool → State → State}
    (hwait : s.bus.respond (.write s.devaddr bytes) = none → Q (await k (.write s.devaddr bytes) s))
    (hgo : ∀ a t, s.bus.respond (.write s.devaddr bytes) = some (a, t)
      → Q (go a.ok (answered (.write s.devaddr bytes a.ok) t s))) :
    Q (busWrite k bytes s go) := by
  cases h : s.bus.respond (.write s.devaddr bytes) with
  | none => rw [busWrite_none h]; exact hwait h
  | some p => rw [busWrite_some h]; exact hgo p.1 p.2 h

theorem busRead_none {k : BitVec 4} {n : Nat} {s : State} {go : Bool → State → State}
    (h : s.bus.respond (.read s.devaddr n) = none) :
    busRead k n s go = await k (.read s.devaddr n) s := by
  unfold busRead; rw [h]

theorem busRead_success {k : BitVec 4} {n : Nat} {s : State} {go : Bool → State → State} {d : Bytes6}
    {t : Transport} (h : s.bus.respond (.read s.devaddr n) = some (.success d, t)) :
    busRead k n s go
      = go true (fillBuf n d (answered (.read s.devaddr n true (Bytes6.firstN n d)) t s)) := by
  unfold busRead; rw [h]

theorem busRead_failure {k : BitVec 4} {n : Nat} {s : State} {go : Bool → State → State} {t : Transport}
    (h : s.bus.respond (.read s.devaddr n) = some (.failure, t)) :
    busRead k n s go = go false (scrambleBuf (answered (.read s.devaddr n false []) t s)) := by
  unfold busRead; rw [h]

/-- `BusRead` waits at step `k`, fills the buffer, or leaves it a free value. -/
theorem busRead_ind {Q : State → Prop} {k : BitVec 4} {n : Nat} {s : State} {go : Bool → State → State}
    (hwait : s.bus.respond (.read s.devaddr n) = none → Q (await k (.read s.devaddr n) s))
    (hok : ∀ d t, s.bus.respond (.read s.devaddr n) = some (.success d, t)
      → Q (go true (fillBuf n d (answered (.read s.devaddr n true (Bytes6.firstN n d)) t s))))
    (hfail : ∀ t, s.bus.respond (.read s.devaddr n) = some (.failure, t)
      → Q (go false (scrambleBuf (answered (.read s.devaddr n false []) t s)))) :
    Q (busRead k n s go) := by
  cases h : s.bus.respond (.read s.devaddr n) with
  | none => rw [busRead_none h]; exact hwait h
  | some p =>
    obtain ⟨a, t⟩ := p
    cases a with
    | success d => rw [busRead_success h]; exact hok d t h
    | failure => rw [busRead_failure h]; exact hfail t h

/-! ### The register operations -/

theorem regWrite_eq (k : BitVec 4) (r : Byte) (values : List Byte) (s : State) (go : Bool → State → State) :
    regWrite k r values s go = busWrite k (r :: values) s go := rfl

theorem regSelect_eq (k : BitVec 4) (r : Byte) (s : State) (go : Bool → State → State) :
    regSelect k r s go = busWrite k [r] s go := rfl

/-- `RegRead` is a select, and a read where the select succeeded. -/
theorem regRead_eq (k₁ k₂ : BitVec 4) (r : Byte) (n : Nat) (s : State) (go : Bool → State → State) :
    regRead k₁ k₂ r n s go = busWrite k₁ [r] s fun ok s => if ok then busRead k₂ n s go else go false s := rfl

/-- `RegRead` waits for its select, goes on with a failed select, waits for its read, or goes on with the read's
outcome. -/
theorem regRead_ind {Q : State → Prop} {k₁ k₂ : BitVec 4} {r : Byte} {n : Nat} {s : State} {go : Bool → State → State}
    (hwait : s.bus.respond (.write s.devaddr [r]) = none → Q (await k₁ (.write s.devaddr [r]) s))
    (hsel : ∀ t, s.bus.respond (.write s.devaddr [r]) = some (.failure, t)
      → Q (go false (answered (.write s.devaddr [r] false) t s)))
    (hread : ∀ d t, s.bus.respond (.write s.devaddr [r]) = some (.success d, t)
      → Q (busRead k₂ n (answered (.write s.devaddr [r] true) t s) go)) :
    Q (regRead k₁ k₂ r n s go) := by
  rw [regRead_eq]
  refine busWrite_ind hwait fun a t h => ?_
  cases a with
  | success d => exact hread d t h
  | failure => exact hsel t h

theorem regRead_select_failed {k₁ k₂ : BitVec 4} {r : Byte} {n : Nat} {s : State} {go : Bool → State → State}
    {t : Transport} (h : s.bus.respond (.write s.devaddr [r]) = some (.failure, t)) :
    regRead k₁ k₂ r n s go = go false (answered (.write s.devaddr [r] false) t s) := by
  rw [regRead_eq, busWrite_some h]; rfl

theorem regRead_selected {k₁ k₂ : BitVec 4} {r : Byte} {n : Nat} {s : State} {go : Bool → State → State}
    {d : Bytes6} {t : Transport} (h : s.bus.respond (.write s.devaddr [r]) = some (.success d, t)) :
    regRead k₁ k₂ r n s go = busRead k₂ n (answered (.write s.devaddr [r] true) t s) go := by
  rw [regRead_eq, busWrite_some h]; rfl

/-- READ's burst waits for its select, goes on with a failed select and `BUF` a free value, or goes on to its read. -/
theorem readBurst_ind {Q : State → Prop} {s : State} {go : Bool → State → State}
    (hwait : s.bus.respond (.write s.devaddr [regData]) = none → Q (await 3 (.write s.devaddr [regData]) s))
    (hsel : ∀ t, s.bus.respond (.write s.devaddr [regData]) = some (.failure, t)
      → Q (go false (scrambleBuf (answered (.write s.devaddr [regData] false) t s))))
    (hread : ∀ d t, s.bus.respond (.write s.devaddr [regData]) = some (.success d, t)
      → Q (busRead 4 6 (answered (.write s.devaddr [regData] true) t s) go)) :
    Q (readBurst s go) := by
  unfold readBurst
  rw [regSelect_eq]
  refine busWrite_ind hwait fun a t h => ?_
  cases a with
  | success d => exact hread d t h
  | failure => exact hsel t h

theorem readBurst_select_failed {s : State} {go : Bool → State → State} {t : Transport}
    (h : s.bus.respond (.write s.devaddr [regData]) = some (.failure, t)) :
    readBurst s go = go false (scrambleBuf (answered (.write s.devaddr [regData] false) t s)) := by
  unfold readBurst; rw [regSelect_eq, busWrite_some h]; rfl

theorem readBurst_selected {s : State} {go : Bool → State → State} {d : Bytes6} {t : Transport}
    (h : s.bus.respond (.write s.devaddr [regData]) = some (.success d, t)) :
    readBurst s go = busRead 4 6 (answered (.write s.devaddr [regData] true) t s) go := by
  unfold readBurst; rw [regSelect_eq, busWrite_some h]; rfl

/-! ### The readiness test -/

theorem ifReady_of_ready {s : State} {go : State → State} (h : s.rdy = true) : ifReady s go = go s := by
  unfold ifReady; rw [if_pos h]

theorem ifReady_of_not_ready {s : State} {go : State → State} (h : s.rdy = false) :
    ifReady s go = complete false 0 s := by
  unfold ifReady; rw [h]; rfl

theorem ifReady_ind {Q : State → Prop} {s : State} {go : State → State}
    (hno : s.rdy = false → Q (complete false 0 s)) (hgo : s.rdy = true → Q (go s)) : Q (ifReady s go) := by
  cases h : s.rdy with
  | false => rw [ifReady_of_not_ready h]; exact hno h
  | true => rw [ifReady_of_ready h]; exact hgo h

/-! ### The configuration writes -/

@[simp] theorem configWrites_nil (k : BitVec 4) (fold : Bool → State → State) (s : State) (go : State → State) :
    configWrites k fold [] s go = go s := rfl

theorem configWrites_cons (k : BitVec 4) (fold : Bool → State → State) (w : Byte × Byte) (ws : List (Byte × Byte))
    (s : State) (go : State → State) :
    configWrites k fold (w :: ws) s go
      = busWrite k [w.1, w.2] s fun ok s => configWrites (k + 1) fold ws (fold ok s) go := rfl

/-- The writes wait at the step of one of them, or all are answered. `I j` holds before the `j`-th. -/
theorem configWrites_ind {I : Nat → State → Prop} {Q : State → Prop} {fold : Bool → State → State}
    {go : State → State} : ∀ {ws : List (Byte × Byte)} {k : BitVec 4} {s : State}, I 0 s →
    (∀ j w s, ws[j]? = some w → I j s →
      Q (await (k + BitVec.ofNat 4 j) (.write s.devaddr [w.1, w.2]) s)) →
    (∀ j w a t s, ws[j]? = some w → I j s → s.bus.respond (.write s.devaddr [w.1, w.2]) = some (a, t) →
      I (j + 1) (fold a.ok (answered (.write s.devaddr [w.1, w.2] a.ok) t s))) →
    (∀ s, I ws.length s → Q (go s)) → Q (configWrites k fold ws s go) := by
  intro ws
  induction ws generalizing I with
  | nil => intro k s h0 _ _ hgo; exact hgo s h0
  | cons w ws ih =>
    intro k s h0 hwait hstep hgo
    rw [configWrites_cons]
    refine busWrite_ind (fun _ => ?_) fun a t h => ?_
    · have := hwait 0 w s rfl h0
      rwa [show k + BitVec.ofNat 4 0 = k from BitVec.add_zero k] at this
    · refine ih (I := fun j => I (j + 1)) (hstep 0 w a t s rfl h0 h) ?_ ?_ ?_
      · intro j w' s' hj hI
        have := hwait (j + 1) w' s' (by simpa using hj) hI
        have e : k + 1 + BitVec.ofNat 4 j = k + BitVec.ofNat 4 (j + 1) := by
          rw [BitVec.add_assoc, Nat.add_comm j 1, BitVec.ofNat_add]
          rfl
        rwa [e]
      · intro j w' a' t' s' hj hI hr
        exact hstep (j + 1) w' a' t' s' (by simpa using hj) hI hr
      · intro s' hI
        exact hgo s' (by simpa using hI)

/-- The transactions of a list of register writes. -/
def writeRequests (dev : Byte) (ws : List (Byte × Byte)) : List Request := ws.map fun w => .write dev [w.1, w.2]

/-- The events of a list of register writes, with the transport's answers. -/
def writeEvents (dev : Byte) (ws : List (Byte × Byte)) (as : List Answer) : List Event :=
  List.zipWith (fun w a => .write dev [w.1, w.2] a.ok) ws as

/-- After a nonempty list of answered writes: every status folded into RDY, none short-circuited. -/
theorem configWrites_foldRdy {go : State → State} : ∀ {ws : List (Byte × Byte)} {k : BitVec 4} {s : State}
    {as : List Answer} {t : Transport}, s.bus.replies (writeRequests s.devaddr ws) = some (as, t) → s.req = none →
    configWrites k foldRdy ws s go
      = go { s with
          rdy := s.rdy && as.all Answer.ok, bus := t, trace := s.trace ++ writeEvents s.devaddr ws as } := by
  intro ws
  induction ws with
  | nil =>
    intro k s as t h hreq
    simp only [writeRequests, List.map_nil, Transport.replies_nil, Option.some.injEq, Prod.mk.injEq] at h
    obtain ⟨rfl, rfl⟩ := h
    simp [writeEvents]
  | cons w ws ih =>
    intro k s as t h hreq
    simp only [writeRequests, List.map_cons] at h
    obtain ⟨a, t₁, as', hr, hrs, rfl⟩ := Transport.replies_cons.1 h
    rw [configWrites_cons, busWrite_some hr, ih (by simpa [writeRequests] using hrs) (by simp)]
    congr 1
    simp [foldRdy, answered, writeEvents, Bool.and_assoc, hreq]

/-- The same for ACC. -/
theorem configWrites_foldAcc {go : State → State} : ∀ {ws : List (Byte × Byte)} {k : BitVec 4} {s : State}
    {as : List Answer} {t : Transport}, s.bus.replies (writeRequests s.devaddr ws) = some (as, t) → s.req = none →
    configWrites k foldAcc ws s go
      = go { s with
          acc := s.acc && as.all Answer.ok, bus := t, trace := s.trace ++ writeEvents s.devaddr ws as } := by
  intro ws
  induction ws with
  | nil =>
    intro k s as t h hreq
    simp only [writeRequests, List.map_nil, Transport.replies_nil, Option.some.injEq, Prod.mk.injEq] at h
    obtain ⟨rfl, rfl⟩ := h
    simp [writeEvents]
  | cons w ws ih =>
    intro k s as t h hreq
    simp only [writeRequests, List.map_cons] at h
    obtain ⟨a, t₁, as', hr, hrs, rfl⟩ := Transport.replies_cons.1 h
    rw [configWrites_cons, busWrite_some hr, ih (by simpa [writeRequests] using hrs) (by simp)]
    congr 1
    simp [foldAcc, answered, writeEvents, Bool.and_assoc, hreq]

/-! ### Acceptance and reset -/

/-- OP and ARG together are the accepted word. -/
theorem op_append_arg (w : CmdWord) : w.extractLsb' 12 4 ++ w.extractLsb' 0 12 = w := by
  apply BitVec.eq_of_getLsbD_eq
  intro i hi
  refine (BitVec.getLsbD_append (x := w.extractLsb' 12 4) (y := w.extractLsb' 0 12)).trans ?_
  by_cases h : i < 12
  · simp [h]
  · have e : 12 + (i - 12) = i := by omega
    have h4 : i - 12 < 4 := by omega
    simp [h, e, h4]

/-- The command of an accepted word. -/
theorem currentCommand_accept (w : CmdWord) (s : State) : currentCommand (accept w s) = decodeCommand w := by
  unfold currentCommand
  rw [accept_op, accept_arg]
  exact congrArg decodeCommand (op_append_arg w)

/-- A reset is refused during a command or a transaction, and else gives the reset state with the transport, the
inputs and the record kept. -/
theorem takeReset_cases (s : State) :
    (takeReset s = .refused .resetDuringCommand ∧ (s.busy = true ∨ s.req.isSome = true))
      ∨ (takeReset s = .next (State.ofReset (Config.atReset s.draws) s.bus s.inbox s.trace s.delivered (s.draws + 1))
          ∧ s.Idle) := by
  unfold takeReset State.Idle
  cases hb : s.busy <;> cases hr : s.req <;> simp

end Sys2Proof.Machine
end

