-- ==== Sys2Proof/Laws/PerInstr.lean ====
section
/-! SUPPORT. What holds of every instruction as syntax: its encoding is well formed (never a reserved word, always a
row of the register-level map), one lemma per constructor. -/

namespace Sys2Proof.Laws.EncodingForm

/-- The instruction is well formed and so is its encoding. -/
def Statement (i : Instr) : Prop := Instr.wf i = true ∧ Encoding.wf (encode i) = true

theorem init_words : ∀ a7 : BitVec 7, CmdWord.reserved (initWord a7) = false := by decide
theorem read_words : ∀ mask : BitVec 3, CmdWord.reserved (readWord mask) = false := by decide
theorem setThresh_words : ∀ t : Byte, CmdWord.reserved (setThreshWord t) = false := by decide

theorem init (a7 : BitVec 7) : Statement (.init a7) := ⟨rfl, by rw [encode, Encoding.wf, init_words]; rfl⟩
theorem read (mask : BitVec 3) : Statement (.read mask) := ⟨rfl, by rw [encode, Encoding.wf, read_words]; rfl⟩
theorem setThresh (t : Byte) : Statement (.setThresh t) := ⟨rfl, by rw [encode, Encoding.wf, setThresh_words]; rfl⟩
theorem intQuery : Statement .intQuery := ⟨rfl, rfl⟩
theorem intEnable : Statement .intEnable := ⟨rfl, rfl⟩
theorem intDisable : Statement .intDisable := ⟨rfl, rfl⟩
theorem intHandle : Statement .intHandle := ⟨rfl, rfl⟩
theorem wrThreshAct (v : Byte) : Statement (.wrThreshAct v) := ⟨rfl, rfl⟩
theorem wrActInactCtl (v : Byte) : Statement (.wrActInactCtl v) := ⟨rfl, rfl⟩
theorem wrBwRate (v : Byte) : Statement (.wrBwRate v) := ⟨rfl, rfl⟩
theorem wrPowerCtl (v : Byte) : Statement (.wrPowerCtl v) := ⟨rfl, rfl⟩
theorem wrIntEnable (v : Byte) : Statement (.wrIntEnable v) := ⟨rfl, rfl⟩
theorem rdDevid : Statement .rdDevid := ⟨rfl, rfl⟩
theorem rdIntEnable : Statement .rdIntEnable := ⟨rfl, rfl⟩
theorem rdIntSource : Statement .rdIntSource := ⟨rfl, rfl⟩
theorem rdData : Statement .rdData := ⟨rfl, rfl⟩

end Sys2Proof.Laws.EncodingForm
end

