-- ==== Sys2Proof/Laws/Step.lean ====
section
/-! SUPPORT. What a step finds to do, said once, and one row of a step table. -/

namespace Sys2Proof.Machine

theorem step_of_reset {s : State} (h : resetPresented s = true) : step s = takeReset (takeInput s.inbox.tail s) := by
  simp [step, fetch, h]

theorem step_of_busy {s : State} (hr : resetPresented s = false) (hb : s.busy = true) : step s = resumeCommand s := by
  simp [step, fetch, hr, hb]

theorem step_of_outstanding {s : State} {r : Request} (hr : resetPresented s = false) (hb : s.busy = false)
    (hq : s.req = some r) : step s = resumeRegisterOp r s := by
  simp [step, fetch, hr, hb, hq]

theorem step_of_empty {s : State} (hi : s.Idle) (h : s.inbox = []) : step s = .next s := by
  simp [step, fetch, resetPresented, hi.1, hi.2, h]

theorem step_of_issue {s : State} {e : Encoding} {rest : List HostEvent} {i : Instr} (hi : s.Idle)
    (h : s.inbox = .issue e :: rest) (hd : decode e = .instr i) (ha : admitted e s = true) :
    step s = exec i (takeInput rest s) := by
  have ha' : admitted e (takeInput rest s) = true := ha
  simp [step, fetch, resetPresented, takeNext, hi.1, hi.2, h, hd, ha']

theorem step_of_not_admitted {s : State} {e : Encoding} {rest : List HostEvent} {i : Instr} (hi : s.Idle)
    (h : s.inbox = .issue e :: rest) (hd : decode e = .instr i) (ha : admitted e s = false) :
    step s = .next (deliverStatus false (takeInput rest s)) := by
  have ha' : admitted e (takeInput rest s) = false := ha
  simp [step, fetch, resetPresented, takeNext, hi.1, hi.2, h, hd, ha']

theorem step_of_rejected {s : State} {e : Encoding} {rest : List HostEvent} {r : Reject} (hi : s.Idle)
    (h : s.inbox = .issue e :: rest) (hd : decode e = .rejected r) :
    step s = rejectedEncoding e (takeInput rest s) := by
  simp [step, fetch, resetPresented, takeNext, hi.1, hi.2, h, hd]

theorem step_of_activity {s : State} {r v : Byte} {rest : List HostEvent} (hi : s.Idle)
    (h : s.inbox = .chipActivity r v :: rest) :
    step s = .next { takeInput rest s with bus := s.bus.activity r v } := by
  simp [step, fetch, resetPresented, takeNext, hi.1, hi.2, h, takeInput]

/-- Everything a step can do: take a reset, go on with a command, go on with a register-level operation, stay idle,
run the instruction presented, hand back the failure of a register-level operation that is not admitted, take an encoding that is rejected, or take the chip's activity. -/
theorem step_cases (s : State) :
    (resetPresented s = true ∧ step s = takeReset (takeInput s.inbox.tail s))
      ∨ (resetPresented s = false ∧ s.busy = true ∧ step s = resumeCommand s)
      ∨ (resetPresented s = false ∧ s.busy = false ∧ ∃ r, s.req = some r ∧ step s = resumeRegisterOp r s)
      ∨ (s.Idle ∧ s.inbox = [] ∧ step s = .next s)
      ∨ (s.Idle ∧ ∃ e rest i, s.inbox = .issue e :: rest ∧ decode e = .instr i ∧ admitted e s = true
          ∧ step s = exec i (takeInput rest s))
      ∨ (s.Idle ∧ ∃ e rest i, s.inbox = .issue e :: rest ∧ decode e = .instr i ∧ admitted e s = false
          ∧ step s = .next (deliverStatus false (takeInput rest s)))
      ∨ (s.Idle ∧ ∃ e rest r, s.inbox = .issue e :: rest ∧ decode e = .rejected r
          ∧ step s = rejectedEncoding e (takeInput rest s))
      ∨ (s.Idle ∧ ∃ r v rest, s.inbox = .chipActivity r v :: rest
          ∧ step s = .next { takeInput rest s with bus := s.bus.activity r v }) := by
  cases hr : resetPresented s with
  | true => exact .inl ⟨rfl, step_of_reset hr⟩
  | false =>
    refine .inr ?_
    cases hb : s.busy with
    | true => exact .inl ⟨rfl, rfl, step_of_busy hr hb⟩
    | false =>
      refine .inr ?_
      cases hq : s.req with
      | some r => exact .inl ⟨rfl, rfl, r, rfl, step_of_outstanding hr hb hq⟩
      | none =>
        refine .inr ?_
        cases hx : s.inbox with
        | nil => exact .inl ⟨⟨hb, hq⟩, rfl, step_of_empty ⟨hb, hq⟩ hx⟩
        | cons x rest =>
          cases x with
          | reset => simp [resetPresented, hx] at hr
          | chipActivity r v =>
            exact .inr (.inr (.inr (.inr ⟨⟨hb, hq⟩, r, v, rest, rfl, step_of_activity ⟨hb, hq⟩ hx⟩)))
          | issue e =>
            cases hd : decode e with
            | instr i =>
              cases ha : admitted e s with
              | true => exact .inr (.inl ⟨⟨hb, hq⟩, e, rest, i, rfl, hd, ha, step_of_issue ⟨hb, hq⟩ hx hd ha⟩)
              | false =>
                exact .inr (.inr (.inl ⟨⟨hb, hq⟩, e, rest, i, rfl, hd, ha, step_of_not_admitted ⟨hb, hq⟩ hx hd ha⟩))
            | rejected r =>
              exact .inr (.inr (.inr (.inl ⟨⟨hb, hq⟩, e, rest, r, rfl, hd, step_of_rejected ⟨hb, hq⟩ hx hd⟩)))

/-! ### The step tables -/

/-- The command in progress depends on OP and ARG alone. -/
theorem currentCommand_congr {s t : State} (ho : t.op = s.op) (ha : t.arg = s.arg) :
    currentCommand t = currentCommand s := by
  unfold currentCommand; rw [ho, ha]

/-- One row of a table, then the rest of the run. -/
theorem runSteps_row {P : Params} {n : Nat} {i : Instr} {s t : State} (hc : currentCommand s = .instr i)
    (ht : tickCommand P i s = some t) :
    runSteps P (n + 1) s = if t.busy && t.req.isNone then runSteps P n t else .next t := by
  simp [runSteps, tick, hc, ht]

/-- `t` has the accepted command and the inputs of `s`. -/
def SameCommand (s t : State) : Prop := t.inbox = s.inbox ∧ t.op = s.op ∧ t.arg = s.arg

/-- No row of a table takes an input or changes the accepted command. -/
theorem tickCommand_sameCommand {P : Params} {i : Instr} {s t : State} (h : tickCommand P i s = some t) :
    SameCommand s t := by
  have hw : ∀ k bytes (go : Bool → State → State), (∀ ok u, SameCommand u (go ok u)) →
      SameCommand s (busWrite k bytes s go) := fun k bytes go hgo =>
    busWrite_ind (fun _ => ⟨rfl, rfl, rfl⟩) fun a t _ => hgo a.ok (answered _ t s)
  have hr : ∀ k n (go : Bool → State → State), (∀ ok u, SameCommand u (go ok u)) →
      SameCommand s (busRead k n s go) := fun k n go hgo =>
    busRead_ind (fun _ => ⟨rfl, rfl, rfl⟩) (fun d t _ => hgo true (fillBuf n d (answered _ t s)))
      fun t _ => hgo false (scrambleBuf (answered _ t s))
  have hready : ∀ go : State → State, (∀ u, SameCommand u (go u)) → SameCommand s (ifReady s go) := fun go hgo =>
    ifReady_ind (fun _ => ⟨rfl, rfl, rfl⟩) fun _ => hgo s
  have hstop : ∀ k bytes, SameCommand s (rowWriteOrStop k bytes s) := fun k bytes =>
    hw k bytes _ fun ok u => by cases ok <;> exact ⟨rfl, rfl, rfl⟩
  cases i
  case intEnable =>
    simp only [tickCommand, tickIntEnable] at h
    split at h
    · cases h; exact hready _ fun u => ⟨rfl, rfl, rfl⟩
    split at h
    · cases h; exact ⟨rfl, rfl, rfl⟩
    split at h
    · cases h; exact hw _ _ _ fun _ _ => ⟨rfl, rfl, rfl⟩
    split at h
    · cases h; exact hr _ _ _ fun _ _ => ⟨rfl, rfl, rfl⟩
    split at h
    · split at h
      · cases h; exact hw _ _ _ fun _ _ => ⟨rfl, rfl, rfl⟩
      · cases h
    · cases h
  all_goals
    simp only [tickCommand, tickInit, tickRead, tickSetThresh, tickIntQuery, tickIntDisable, tickIntHandle] at h
    try split at h
  all_goals cases h
  all_goals first
    | exact ⟨rfl, rfl, rfl⟩
    | exact hready _ fun u => ⟨rfl, rfl, rfl⟩
    | exact hstop _ _
    | exact hw _ _ _ fun ok u => by first | exact ⟨rfl, rfl, rfl⟩ | (split <;> exact ⟨rfl, rfl, rfl⟩)
    | exact hr _ _ _ fun ok u => by first | exact ⟨rfl, rfl, rfl⟩ | (split <;> exact ⟨rfl, rfl, rfl⟩)

end Sys2Proof.Machine
end

