-- ==== Sys2Proof/Laws/Transport.lean ====
section
/-! SUPPORT. Transports that answer: what one answered transaction leaves, and which transports answer. -/

namespace Sys2Proof.Machine

/-- A transport that answers `n + 1` transactions answers one, and then `n`. -/
theorem Transport.Answers.respond {n : Nat} {t : Transport} {r : Request} (h : t.Answers (n + 1))
    (hr : r.form = true) : ∃ a t', t.respond r = some (a, t') ∧ t'.Answers n := by
  have h1 := h [r] (by simp) (by simpa using hr)
  obtain ⟨p, hp⟩ := Option.isSome_iff_exists.1 h1
  obtain ⟨a, t', as, hresp, -, -⟩ := Transport.replies_cons.1 hp
  refine ⟨a, t', hresp, fun rs hlen hform => ?_⟩
  obtain ⟨q, hq⟩ := Option.isSome_iff_exists.1 (h (r :: rs) (by simpa using hlen) (by simpa using ⟨hr, hform⟩))
  obtain ⟨b, u, bs, hresp', hrest, -⟩ := Transport.replies_cons.1 hq
  rw [hresp] at hresp'
  obtain ⟨-, rfl⟩ := Prod.mk.inj (Option.some.inj hresp')
  rw [hrest]; rfl

@[simp] theorem Transport.extend_nil (t : Transport) : t.extend [] = t := by
  cases t <;> simp [Transport.extend]

theorem Transport.extend_append (t : Transport) (as bs : List Answer) :
    t.extend (as ++ bs) = (t.extend as).extend bs := by
  cases t <;> simp [Transport.extend]

/-- An answer that is there is not changed by further ones. -/
theorem Transport.respond_extend {t t' : Transport} {r : Request} {a : Answer} (h : t.respond r = some (a, t'))
    (more : List Answer) : (t.extend more).respond r = some (a, t'.extend more) := by
  cases t with
  | scripted answers =>
    cases answers with
    | nil => simp [Transport.respond] at h
    | cons b rest =>
      simp only [Transport.respond, Option.some.injEq, Prod.mk.injEq] at h
      obtain ⟨rfl, rfl⟩ := h
      rfl
  | chip c =>
    simp only [Transport.respond, Option.map_eq_some_iff, Prod.mk.injEq] at h
    obtain ⟨p, hp, rfl, rfl⟩ := h
    simp [Transport.extend, Transport.respond, hp]

theorem Transport.Answers.mono {n m : Nat} {t : Transport} (h : t.Answers n) (hm : m ≤ n) : t.Answers m :=
  fun rs hlen hform => h rs (hlen.trans hm) hform

/-- A script of at least `n` answers answers `n` transactions. -/
theorem Transport.scripted_answers {n : Nat} : ∀ {answers : List Answer}, n ≤ answers.length →
    (Transport.scripted answers).Answers n := by
  intro answers hn rs hlen hform
  induction rs generalizing answers n with
  | nil => simp
  | cons r rs ih =>
    cases answers with
    | nil => simp at hn hlen; omega
    | cons a rest =>
      have hlen' : rs.length ≤ rest.length := by simp at hn hlen; omega
      obtain ⟨p, hp⟩ := Option.isSome_iff_exists.1 (ih hlen' le_rfl fun r' hr' => hform r' (by simp [hr']))
      simp [Transport.replies, Transport.respond, hp]

/-- The reference chip answers every transaction of the forms SEQ issues. -/
theorem RefChip.respond_isSome (c : RefChip) {r : Request} (hr : r.form = true) : (c.respond r).isSome = true := by
  match r, hr with
  | .write a [_], _ => simp only [RefChip.respond]; split <;> rfl
  | .write a [_, _], _ => simp only [RefChip.respond]; split <;> rfl
  | .read a n, _ => simp only [RefChip.respond]; split <;> rfl

theorem Transport.chip_answers (n : Nat) (c : RefChip) : (Transport.chip c).Answers n := by
  intro rs hlen hform
  induction rs generalizing c with
  | nil => simp
  | cons r rs ih =>
    obtain ⟨⟨a, c'⟩, hp⟩ := Option.isSome_iff_exists.1 (c.respond_isSome (hform r (by simp)))
    obtain ⟨q, hq⟩ := Option.isSome_iff_exists.1
      (ih c' (Nat.le_of_succ_le hlen) fun r' hr' => hform r' (by simp [hr']))
    simp [Transport.replies, Transport.respond, hp, hq]

end Sys2Proof.Machine
end

