-- ==== Sys2Proof/Tests/Slice0.lean ====
section
/-! SUPPORT. Tests, each with the vector of 95_test_vectors.md or the rule it is taken from, and for every statement
with hypotheses a witness that meets them. -/

namespace Sys2Proof.Tests

open Sys2Proof.Machine

/-! ## Helpers -/

/-- `EXCFG` (95_test_vectors.md): illustrations, not values of the source. -/
def exampleParams : Params where
  threshDefault := 0x08
  actCtl := 0xF0
  bwRate := 0x00
  intAct := 0x10
  measure := 0x08
  settle := 5
  defaultAddr := 0x53
  flushPos := .after4

/-- Six bytes received, the first `b`. -/
def bytes (b : Byte) : Bytes6 := ⟨b, 0, 0, 0, 0, 0⟩

/-- The answer to a transaction that succeeds. -/
def ack : Answer := .success (bytes 0)

/-- A state with readiness `rdy`, DEVADDR `0xA6`, slots 1, 2, 3, and a transport that will answer as listed. -/
def idleAt (rdy : Bool) (answers : List Answer) (inbox : List HostEvent) : State :=
  { State.ofReset ⟨1, 2, 3, 0xA6, 0, 0, false, bytes 7⟩ (.scripted answers) inbox [] [] 0 with rdy := rdy }

/-- A ready machine. -/
def ready (answers : List Answer) : State := idleAt true answers []

/-- A ready machine to which command word `w` is presented. -/
def readyFor (w : CmdWord) (answers : List Answer) : State := idleAt true answers [.issue (.command w)]

/-- A machine that has taken `SET_THRESH 0x20` and waits for its write to be answered. -/
def waiting (answers : List Answer) : State :=
  { ready answers with
    busy := true, op := 3, arg := 0x20, stepNo := 1, req := some (.write 0xA6 [0x24, 0x20]) }

/-- A ready machine wired to the reference chip at `0x53`, its register `0x30` holding `v`. -/
def withChip (v : Byte) : State :=
  { ready [] with bus := .chip ((RefChip.fresh 0x53).setReg 0x30 v) }

/-- An idle machine that has presented the read phase of RD_DEVID and waits for its answer. -/
def waitingRead : State := { ready [] with req := some (.read 0xA6 1) }

/-- A field of the next state. -/
def next? {α : Type} (o : Result) (f : State → α) : Option α :=
  match o with
  | .next s => some (f s)
  | .fault _ => none
  | .refused _ => none

/-! ## WellFormed: an ill-formed term for each check -/

/-- 30_encoding.md R87: opcode 0 and 8 to 15; bit 11; INIT with bits 10:7; READ with `imm`; SET_THRESH with `mask`;
opcodes 4 to 7 with operand bits. -/
theorem test_wf_reserved_refused :
    Encoding.wf (.command 0x0000) = false ∧ Encoding.wf (.command 0x8000) = false
      ∧ Encoding.wf (.command 0xFFFF) = false ∧ Encoding.wf (.command 0x2800) = false
      ∧ Encoding.wf (.command 0x7800) = false ∧ Encoding.wf (.command 0x1080) = false
      ∧ Encoding.wf (.command 0x1153) = false ∧ Encoding.wf (.command 0x2701) = false
      ∧ Encoding.wf (.command 0x3120) = false ∧ Encoding.wf (.command 0x4001) = false
      ∧ Encoding.wf (.command 0x7400) = false := by decide

/-- 30_encoding.md R91: a register write to `0x31` and to the read-only `0x30`, a select of `0x24`, no byte, three
bytes. -/
theorem test_wf_registerOp_refused :
    Encoding.wf (.registerOp [0x31, 0x00]) = false ∧ Encoding.wf (.registerOp [0x30, 0x00]) = false
      ∧ Encoding.wf (.registerOp [0x24]) = false ∧ Encoding.wf (.registerOp []) = false
      ∧ Encoding.wf (.registerOp [0x24, 0x00, 0x00]) = false := by decide

/-- 30_encoding.md R98: `INIT 0x80` and `SET_THRESH 0x100` are out of range. -/
theorem test_wf_asmLine_refused :
    AsmLine.wf (.init (some 0x80)) = false ∧ AsmLine.wf (.setThresh 0x100) = false := by decide

/-! ## Decoding, from 95_test_vectors.md section 2.1 and 30_encoding.md R91 -/

theorem test_decode_init :
    decodeCommand 0x1053 = .instr (.init 0x53) ∧ decodeCommand 0x1000 = .instr (.init 0x00)
      ∧ decodeCommand 0x107F = .instr (.init 0x7F) := by decide

theorem test_decode_read :
    decodeCommand 0x2000 = .instr (.read 0b000) ∧ decodeCommand 0x2100 = .instr (.read 0b001)
      ∧ decodeCommand 0x2200 = .instr (.read 0b010) ∧ decodeCommand 0x2400 = .instr (.read 0b100)
      ∧ decodeCommand 0x2700 = .instr (.read 0b111) := by decide

theorem test_decode_setThresh :
    decodeCommand 0x3000 = .instr (.setThresh 0x00) ∧ decodeCommand 0x30FF = .instr (.setThresh 0xFF) := by decide

theorem test_decode_interrupts :
    decodeCommand 0x4000 = .instr .intQuery ∧ decodeCommand 0x5000 = .instr .intEnable
      ∧ decodeCommand 0x6000 = .instr .intDisable ∧ decodeCommand 0x7000 = .instr .intHandle := by decide

theorem test_decode_reserved :
    decodeCommand 0x1080 = .rejected .reservedWord ∧ decodeCommand 0x1153 = .rejected .reservedWord
      ∧ decodeCommand 0x2800 = .rejected .reservedWord ∧ decodeCommand 0x2701 = .rejected .reservedWord
      ∧ decodeCommand 0x3120 = .rejected .reservedWord ∧ decodeCommand 0x4001 = .rejected .reservedWord
      ∧ decodeCommand 0x7800 = .rejected .reservedWord ∧ decodeCommand 0x0000 = .rejected .reservedWord
      ∧ decodeCommand 0x8000 = .rejected .reservedWord ∧ decodeCommand 0xFFFF = .rejected .reservedWord := by decide

theorem test_decode_register_writes :
    decodeRegisterOp [0x24, 0x20] = .instr (.wrThreshAct 0x20) ∧ decodeRegisterOp [0x27, 0xF0] = .instr (.wrActInactCtl 0xF0)
      ∧ decodeRegisterOp [0x2C, 0x00] = .instr (.wrBwRate 0x00) ∧ decodeRegisterOp [0x2D, 0x08] = .instr (.wrPowerCtl 0x08)
      ∧ decodeRegisterOp [0x2E, 0x10] = .instr (.wrIntEnable 0x10) := by decide

theorem test_decode_register_reads :
    decodeRegisterOp [0x00] = .instr .rdDevid ∧ decodeRegisterOp [0x2E] = .instr .rdIntEnable
      ∧ decodeRegisterOp [0x30] = .instr .rdIntSource ∧ decodeRegisterOp [0x32] = .instr .rdData
      ∧ decodeRegisterOp [0x33] = .rejected .unknownRegisterOp
      ∧ decodeRegisterOp [0x30, 0x00] = .rejected .unknownRegisterOp := by decide

/-- Bits numbered as spec/opcode_table.json numbers them: a command word, `byte0` over `byte1` of a register write, one
select byte. -/
theorem test_decodeTableWord :
    decodeTableWord 16 0x1053 = some (.init 0x53) ∧ decodeTableWord 16 0x2200 = some (.read 0b010)
      ∧ decodeTableWord 16 0x7000 = some .intHandle ∧ decodeTableWord 16 0x2E10 = some (.wrIntEnable 0x10)
      ∧ decodeTableWord 16 0x2708 = some (.wrActInactCtl 0x08) ∧ decodeTableWord 8 0x32 = some .rdData
      ∧ decodeTableWord 8 0x00 = some .rdDevid ∧ decodeTableWord 16 0x1080 = none := by decide

/-- The word columns of 30_encoding.md R98 and R99. -/
theorem test_assemble :
    assemble exampleParams (.init (some 0x53)) = some 0x1053 ∧ assemble exampleParams (.init none) = some 0x1053
      ∧ assemble exampleParams (.read [.x, .y, .z]) = some 0x2700 ∧ assemble exampleParams (.read []) = some 0x2000
      ∧ assemble exampleParams (.setThresh 0x20) = some 0x3020 ∧ assemble exampleParams .intHandle = some 0x7000 := by decide

/-- A word presented with `withFetchWord` is what the next step runs: from reset, `SET_THRESH 0x20` finds the machine
not ready (V-NR-2), `INIT 0x53` presents its first write to `0xA6` (S1), and RD_DATA its select (40_register_access.md
R128). -/
theorem test_withFetchWord :
    next? (step (State.reset.withFetchWord 16 0x3020)) (·.delivered) = some [.response false 0]
      ∧ next? (step (State.reset.withFetchWord 16 0x1053)) (·.req) = some (some (.write 0xA6 [0x00]))
      ∧ next? (step (State.reset.withFetchWord 8 0x32)) (·.req)
          = some (some (.write (Config.atReset 0).devaddr [0x32])) := by
  exact ⟨rfl, rfl, rfl⟩

/-! ## The decoder functions, 95_test_vectors.md section 2.3 -/

theorem test_idMatch :
    idMatch 0xE5 = true ∧ idMatch 0xE4 = false ∧ idMatch 0x65 = false ∧ idMatch 0x5E = false := by decide

theorem test_anyEnabled :
    anyEnabled 0x00 = false ∧ anyEnabled 0x01 = true ∧ anyEnabled 0x10 = true ∧ anyEnabled 0x80 = true := by decide

theorem test_decodeEvents :
    decodeEvents 0x00 = 0b000 ∧ decodeEvents 0x10 = 0b001 ∧ decodeEvents 0x40 = 0b010 ∧ decodeEvents 0x20 = 0b100
      ∧ decodeEvents 0x50 = 0b011 ∧ decodeEvents 0x30 = 0b101 ∧ decodeEvents 0x60 = 0b110 ∧ decodeEvents 0x8F = 0b000
      ∧ decodeEvents 0xFF = 0b111 ∧ decodeEvents 0x9F = 0b001 := by decide

theorem test_sample16 :
    (sample16 0x10 0x00).toInt = 16 ∧ (sample16 0x00 0x01).toInt = 256 ∧ (sample16 0xFF 0x7F).toInt = 32767
      ∧ (sample16 0x00 0x80).toInt = -32768 ∧ (sample16 0xFF 0xFF).toInt = -1 ∧ (sample16 0x34 0x12).toInt = 4660 := by decide

/-- `bt_rsp_rdata[7:0]` is the first byte received (10_state.md R38, D19). -/
theorem test_ofPins : Answer.ofPins true 0x060504030201 = .success ⟨1, 2, 3, 4, 5, 6⟩ := by decide

/-! ## The commands -/

/-- V-INIT-1. -/
theorem test_init_matched :
    (initCommand exampleParams 0x53
        (idleAt false [ack, .success (bytes 0xE5), ack, ack, ack, ack, ack, ack] [])).result
      = ⟨[.response true 0], 0xA6, true, 1, 2, 3,
          [.write 0xA6 [0x00] true, .read 0xA6 1 true [0xE5], .write 0xA6 [0x2E, 0x00] true,
            .write 0xA6 [0x24, 0x08] true, .write 0xA6 [0x27, 0xF0] true, .write 0xA6 [0x2C, 0x00] true,
            .write 0xA6 [0x2E, 0x10] true, .write 0xA6 [0x2D, 0x08] true]⟩ := by decide

/-- V-INIT-3c: write 3 fails, the others are attempted and RDY is 0. -/
theorem test_init_third_write_fails :
    (initCommand exampleParams 0x53
        (idleAt true [ack, .success (bytes 0xE5), ack, ack, .failure, ack, ack, ack] [])).result
      = ⟨[.response false 0], 0xA6, false, 1, 2, 3,
          [.write 0xA6 [0x00] true, .read 0xA6 1 true [0xE5], .write 0xA6 [0x2E, 0x00] true,
            .write 0xA6 [0x24, 0x08] true, .write 0xA6 [0x27, 0xF0] false, .write 0xA6 [0x2C, 0x00] true,
            .write 0xA6 [0x2E, 0x10] true, .write 0xA6 [0x2D, 0x08] true]⟩ := by decide

/-- V-READ-2. -/
theorem test_read_signed :
    (readCommand exampleParams 0b111 (ready [ack, ack, .success ⟨0xFF, 0xFF, 0x00, 0x80, 0xFF, 0x7F⟩])).result
      = ⟨[.response true 0], 0xA6, true, -1, -32768, 32767,
          [.write 0xA6 [0x2D, 0x08] true, .wait 5, .write 0xA6 [0x32] true,
            .read 0xA6 6 true [0xFF, 0xFF, 0x00, 0x80, 0xFF, 0x7F]]⟩ := by decide

/-- V-READ-3: only the Y slot is written. -/
theorem test_read_masked :
    (readCommand exampleParams 0b010 (ready [ack, ack, .success ⟨0x10, 0x00, 0x20, 0x00, 0x30, 0x00⟩])).result
      = ⟨[.response true 0], 0xA6, true, 1, 32, 3,
          [.write 0xA6 [0x2D, 0x08] true, .wait 5, .write 0xA6 [0x32] true,
            .read 0xA6 6 true [0x10, 0x00, 0x20, 0x00, 0x30, 0x00]]⟩ := by decide

/-- V-THR-1. -/
theorem test_setThresh :
    next? (step (readyFor 0x3020 [ack])) State.result
      = some ⟨[.response true 0], 0xA6, true, 1, 2, 3, [.write 0xA6 [0x24, 0x20] true]⟩ := by decide

/-- V-THR-4: RDY stays 1. -/
theorem test_setThresh_fails :
    next? (step (readyFor 0x3020 [.failure])) State.result
      = some ⟨[.response false 0], 0xA6, true, 1, 2, 3, [.write 0xA6 [0x24, 0x20] false]⟩ := by decide

/-- V-QRY-3: any nonzero byte. -/
theorem test_intQuery :
    next? (step (readyFor 0x4000 [ack, .success (bytes 0x80)])) State.result
      = some ⟨[.response true 0], 0xA6, true, 1, 2, 3,
          [.write 0xA6 [0x2E] true, .read 0xA6 1 true [0x80]]⟩ := by decide

/-- V-QRY-5: the read fails. -/
theorem test_intQuery_read_fails :
    next? (step (readyFor 0x4000 [ack, .failure])) State.result
      = some ⟨[.response false 0], 0xA6, true, 1, 2, 3, [.write 0xA6 [0x2E] true, .read 0xA6 1 false []]⟩ := by decide

/-- V-EN-1. -/
theorem test_intEnable :
    (intEnableCommand exampleParams
        (ready [ack, ack, ack, ack, ack, .success (bytes 0x10), ack, ack])).result
      = ⟨[.response true 0], 0xA6, true, 1, 2, 3,
          [.write 0xA6 [0x2E, 0x00] true, .write 0xA6 [0x24, 0x08] true, .write 0xA6 [0x27, 0xF0] true,
            .write 0xA6 [0x2C, 0x00] true, .write 0xA6 [0x30] true, .read 0xA6 1 true [0x10],
            .write 0xA6 [0x2E, 0x10] true, .write 0xA6 [0x2D, 0x08] true]⟩ := by decide

/-- V-EN-6: `P_FLUSH_POS = 1`. -/
theorem test_intEnable_flush_first :
    (intEnableCommand { exampleParams with flushPos := .after1 }
        (ready [ack, ack, .success (bytes 0), ack, ack, ack, ack, ack])).trace
      = [.write 0xA6 [0x2E, 0x00] true, .write 0xA6 [0x30] true, .read 0xA6 1 true [0x00],
          .write 0xA6 [0x24, 0x08] true, .write 0xA6 [0x27, 0xF0] true, .write 0xA6 [0x2C, 0x00] true,
          .write 0xA6 [0x2E, 0x10] true, .write 0xA6 [0x2D, 0x08] true] := by decide

/-- V-DIS-1. -/
theorem test_intDisable :
    next? (step (readyFor 0x6000 [ack])) State.result
      = some ⟨[.response true 0], 0xA6, true, 1, 2, 3, [.write 0xA6 [0x2E, 0x00] true]⟩ := by decide

/-- V-NR-5: not ready, no transaction. -/
theorem test_intDisable_not_ready :
    next? (step (idleAt false [ack] [.issue (.command 0x6000)])) State.result
      = some ⟨[.response false 0], 0xA6, false, 1, 2, 3, []⟩ := by decide

/-- V-HND-1. -/
theorem test_intHandle :
    next? (step (readyFor 0x7000 [ack, .success (bytes 0x50)])) State.result
      = some ⟨[.response false 0b011], 0xA6, true, 1, 2, 3,
          [.write 0xA6 [0x30] true, .read 0xA6 1 true [0x50]]⟩ := by decide

/-- V-HND-5: the select fails, no read is issued. -/
theorem test_intHandle_select_fails :
    next? (step (readyFor 0x7000 [.failure])) State.result
      = some ⟨[.response false 0], 0xA6, true, 1, 2, 3, [.write 0xA6 [0x30] false]⟩ := by decide

/-- V-RSV-1. -/
theorem test_reserved :
    next? (step (readyFor 0x8000 [ack])) State.result
      = some ⟨[.response false 0], 0xA6, true, 1, 2, 3, []⟩ := by decide

/-! ## The register-level operations, DEVADDR `0xA6` -/

/-- 40_register_access.md R120. -/
theorem test_wrThreshAct :
    next? (exec (.wrThreshAct 0x20) (ready [ack])) (fun t => (t.trace, t.delivered))
      = some ([.write 0xA6 [0x24, 0x20] true], [.status true]) := by decide

/-- R121. -/
theorem test_wrActInactCtl :
    next? (exec (.wrActInactCtl 0xF0) (ready [ack])) (fun t => (t.trace, t.delivered))
      = some ([.write 0xA6 [0x27, 0xF0] true], [.status true]) := by decide

/-- R122. -/
theorem test_wrBwRate :
    next? (exec (.wrBwRate 0x0A) (ready [.failure])) (fun t => (t.trace, t.delivered))
      = some ([.write 0xA6 [0x2C, 0x0A] false], [.status false]) := by decide

/-- R123. -/
theorem test_wrPowerCtl :
    next? (exec (.wrPowerCtl 0x08) (ready [ack])) (fun t => (t.trace, t.delivered))
      = some ([.write 0xA6 [0x2D, 0x08] true], [.status true]) := by decide

/-- V-RA-2. -/
theorem test_wrIntEnable_fails :
    next? (exec (.wrIntEnable 0x00) (ready [.failure])) (fun t => (t.trace, t.delivered))
      = some ([.write 0xA6 [0x2E, 0x00] false], [.status false]) := by decide

/-- V-RA-3. -/
theorem test_rdDevid :
    next? (exec .rdDevid (ready [ack, .success (bytes 0xE5)])) (fun t => (t.trace, t.delivered, t.buf.b0))
      = some ([.write 0xA6 [0x00] true, .read 0xA6 1 true [0xE5]], [.status true], 0xE5) := by decide

/-- V-RA-4: the select fails, no read is issued. -/
theorem test_rdDevid_select_fails :
    next? (exec .rdDevid (ready [.failure])) (fun t => (t.trace, t.delivered))
      = some ([.write 0xA6 [0x00] false], [.status false]) := by decide

/-- 40_register_access.md R126. -/
theorem test_rdIntEnable :
    next? (exec .rdIntEnable (ready [ack, .success (bytes 0x10)])) (fun t => (t.trace, t.buf.b0))
      = some ([.write 0xA6 [0x2E] true, .read 0xA6 1 true [0x10]], 0x10) := by decide

/-- R127 on the reference chip: the read clears `0x30` (20_memory.md R58). -/
theorem test_rdIntSource_clears :
    next? (exec .rdIntSource (withChip 0x50)) (fun t => (t.buf.b0, t.bus.reg 0x30)) = some (0x50, some 0x00) := by decide

/-- V-RA-6. -/
theorem test_rdData :
    next? (exec .rdData (ready [ack, .success ⟨1, 2, 3, 4, 5, 6⟩])) (fun t => (t.trace, t.buf))
      = some ([.write 0xA6 [0x32] true, .read 0xA6 6 true [1, 2, 3, 4, 5, 6]], ⟨1, 2, 3, 4, 5, 6⟩) := by decide

/-- V-RA-5: the read fails. -/
theorem test_rdData_fails :
    next? (exec .rdData (ready [ack, .failure])) (fun t => (t.trace, t.delivered))
      = some ([.write 0xA6 [0x32] true, .read 0xA6 6 false []], [.status false]) := by decide

/-- 10_state.md R36: no register operation while RDY is 0. -/
theorem test_registerOp_not_ready :
    next? (step (idleAt false [ack] [.issue (.registerOp [0x24, 0x20])])) (fun t => (t.trace, t.delivered, t.req))
      = some ([], [.status false], none) := by decide

/-! ## Waiting, reset, the reference chip -/

/-- 40_register_access.md R112: no answer, the machine stays where it is. -/
theorem test_waits : step (waiting []) = .next (waiting []) := by exact rfl

/-- The answer comes and the command ends (44_threshold.md R197). -/
theorem test_resumes :
    next? (step (withAnswers [ack] (waiting []))) State.result
      = some ⟨[.response true 0], 0xA6, true, 1, 2, 3, [.write 0xA6 [0x24, 0x20] true]⟩ := by decide

/-- V-RST-1, by the reset input (70_reset_and_hazards.md R260). -/
theorem test_reset :
    next? (step (idleAt true [] [.reset])) (fun t => (t.rdy, t.busy, t.stepNo, t.respOk, t.respEv, t.trace))
      = some (false, false, 0, false, 0, []) := by exact rfl

/-- 70_reset_and_hazards.md R262. -/
theorem test_reset_during_command :
    step { waiting [] with inbox := [.reset] } = .refused .resetDuringCommand := by exact rfl

/-- Program P3, step 8 after step 7: a second INT_HANDLE finds the latch cleared. -/
theorem test_handle_twice :
    (intHandleCommand (intHandleCommand (withChip 0x50))).delivered
      = [.response false 0b011, .response false 0b000] := by decide

/-- 95_test_vectors.md section 4: the chip's own activity between commands. -/
theorem test_chipActivity :
    next? (step { withChip 0x00 with inbox := [.chipActivity 0x30 0x10] }) (fun t => t.bus.reg 0x30)
      = some (some 0x10) := by decide

/-- 95_test_vectors.md section 4: initially `0xE5` at `0x00`, and writing `0x00` back to a register removes it from
the list. -/
theorem test_chip_registers :
    (RefChip.fresh 0x53).reg 0x00 = 0xE5 ∧ (RefChip.fresh 0x53).reg 0x2E = 0x00
      ∧ (((RefChip.fresh 0x53).setReg 0x2E 0x10).setReg 0x24 0x08).regs = [(0x24, 0x08), (0x2E, 0x10)]
      ∧ ((RefChip.fresh 0x53).setReg 0x2E 0x10).setReg 0x2E 0x00 = RefChip.fresh 0x53 := by decide

/-! ## Witnesses: every statement with hypotheses, and each clause, is met somewhere -/

theorem test_witness_DecodeOfEncode : Instr.wf (.init 0x7F) = true := rfl

theorem test_witness_EncodeOfDecode :
    decode (.command 0x107F) = .instr (.init 0x7F) ∧ decode (.registerOp [0x24, 0xFF]) = .instr (.wrThreshAct 0xFF) := by
  decide

theorem test_witness_DecodingFollowsTheTable :
    (0x107F : CmdWord) &&& 0xFF80 = 0x1000 ∧ (0x2700 : CmdWord) &&& 0xF8FF = 0x2000
      ∧ (0x30FF : CmdWord) &&& 0xFF00 = 0x3000 ∧ (0x4000 : CmdWord) &&& 0xFFFF = 0x4000
      ∧ (0x5000 : CmdWord) &&& 0xFFFF = 0x5000 ∧ (0x6000 : CmdWord) &&& 0xFFFF = 0x6000
      ∧ (0x7000 : CmdWord) &&& 0xFFFF = 0x7000
      ∧ (0x1080 : CmdWord) &&& 0xFF80 ≠ 0x1000 ∧ (0x1080 : CmdWord) &&& 0xF8FF ≠ 0x2000
      ∧ (0x1080 : CmdWord) &&& 0xFF00 ≠ 0x3000 ∧ (0x1080 : CmdWord) &&& 0xFFFF ≠ 0x4000
      ∧ (0x1080 : CmdWord) &&& 0xFFFF ≠ 0x5000 ∧ (0x1080 : CmdWord) &&& 0xFFFF ≠ 0x6000
      ∧ (0x1080 : CmdWord) &&& 0xFFFF ≠ 0x7000 := by decide

/-- A register-level operation on its own: on a ready machine and on one that is not. -/
theorem test_witness_StepRunsDecodedInstruction_alone :
    (idleAt true [] [.issue (.registerOp [0x2E])]).Idle ∧ (idleAt false [] [.issue (.registerOp [0x2E])]).Idle
      ∧ (idleAt true [] [.issue (.registerOp [0x2E])]).inbox = .issue (.registerOp [0x2E]) :: []
      ∧ decodeRegisterOp [0x2E] = .instr .rdIntEnable ∧ (idleAt true [] []).rdy = true
      ∧ (idleAt false [] []).rdy = false := ⟨⟨rfl, rfl⟩, ⟨rfl, rfl⟩, rfl, by decide, rfl, rfl⟩

theorem test_witness_StepRunsDecodedInstruction :
    (readyFor 0x3020 [ack]).Idle ∧ (readyFor 0x3020 [ack]).inbox = .issue (.command 0x3020) :: []
      ∧ decodeCommand 0x3020 = .instr (.setThresh 0x20) ∧ Instr.wf (.setThresh 0x20) = true :=
  ⟨⟨rfl, rfl⟩, rfl, by decide, rfl⟩

theorem test_witness_ReservedWordCompletes :
    (readyFor 0x1080 []).Idle ∧ (readyFor 0x1080 []).inbox = .issue (.command 0x1080) :: []
      ∧ CmdWord.reserved 0x1080 = true := ⟨⟨rfl, rfl⟩, rfl, by decide⟩

theorem test_witness_WaitingChangesNothing :
    resetPresented (waiting []) = false ∧ (waiting []).busy = true
      ∧ currentCommand (waiting []) = .instr (.setThresh 0x20)
      ∧ (waiting []).req = some (.write 0xA6 [0x24, 0x20])
      ∧ rowRequest params (.setThresh 0x20) (waiting []).stepNo.toNat (waiting []).devaddr
          = some (.write 0xA6 [0x24, 0x20])
      ∧ (waiting []).bus.respond (.write 0xA6 [0x24, 0x20]) = none := by
  exact ⟨rfl, rfl, by decide, rfl, by decide, rfl⟩

/-- The clause about a register-level operation on its own. -/
theorem test_witness_WaitingChangesNothing_alone :
    resetPresented waitingRead = false ∧ waitingRead.busy = false ∧ waitingRead.req = some (.read 0xA6 1)
      ∧ standsAlone waitingRead.devaddr (.read 0xA6 1) = true ∧ waitingRead.bus.respond (.read 0xA6 1) = none := by
  decide

/-- The clauses about a register-level operation on its own: a write, and a read at its read phase. -/
theorem test_witness_CommandsWaitForTheFirstAnswer_alone :
    encode (.wrBwRate 0x0A) = .registerOp [0x2C, 0x0A] ∧ (ready []).bus.respond (.write 0xA6 [0x2C, 0x0A]) = none
      ∧ encode .rdData = .registerOp [0x32] ∧ 6 ∈ allowedReads .rdData
      ∧ (ready [ack]).bus.respond (.write 0xA6 [0x32]) = some (.success (bytes 0), .scripted [])
      ∧ (Transport.scripted []).respond (.read 0xA6 6) = none := by decide

theorem test_witness_CommandsWaitForTheFirstAnswer :
    (testsReady (.read 0b111) = true ∧ encode (.read 0b111) = .command 0x2700 ∧ (ready []).rdy = true
      ∧ rowRequest params (.read 0b111) 1 (ready []).devaddr = some (.write 0xA6 [0x2D, params.measure])
      ∧ (ready []).bus.respond (.write 0xA6 [0x2D, params.measure]) = none)
    ∧ (idleAt false [] []).bus.respond (.write (busForm 0x53) [0x00]) = none :=
  ⟨⟨rfl, by decide, rfl, rfl, rfl⟩, rfl⟩

theorem test_witness_ResetInputResets :
    (idleAt true [] [.reset]).Idle ∧ (idleAt true [] [.reset]).inbox = .reset :: [] := ⟨⟨rfl, rfl⟩, rfl⟩

theorem test_witness_ResetDuringCommandRefused :
    { waiting [] with inbox := [.reset] }.busy = true ∧ { waiting [] with inbox := [.reset] }.inbox = .reset :: [] :=
  ⟨rfl, rfl⟩

theorem test_decode_waiting : decodeCommand ((3 : BitVec 4) ++ (0x20 : BitVec 12)) = .instr (.setThresh 0x20) := by decide

/-- A state of the invariant that waits in the middle of a command. -/
theorem test_inv_waiting (answers : List Answer) : (waiting answers).Inv where
  bus_wf := rfl
  devaddr_even _ := (by decide : (0xA6 : Byte).getLsbD 0 = false)
  idle_step h := by cases h
  idle_req h := by cases h
  idle_req_ready h := by cases h
  busy_row _ := ⟨.setThresh 0x20, .write 0xA6 [0x24, 0x20], test_decode_waiting, rfl, rfl⟩
  busy_ready _ _ _ _ := rfl

theorem test_witness_StepKeepsInv :
    (waiting [ack]).Inv ∧ ∃ t, step (waiting [ack]) = .next t ∧ t.busy = false :=
  ⟨test_inv_waiting _, _, rfl, by decide⟩

theorem test_witness_NoStepFaults : (waiting []).Inv := test_inv_waiting _

theorem test_witness_SlotsChangeOnlyByRead :
    resetPresented (readyFor 0x6000 [ack]) = false ∧ (∃ t, step (readyFor 0x6000 [ack]) = .next t)
      ∧ ∀ mask, running (readyFor 0x6000 [ack]) ≠ some (.read mask) :=
  ⟨rfl, ⟨_, rfl⟩, by decide⟩

theorem test_witness_RdyAndDevaddrChangeOnlyByInit :
    resetPresented (readyFor 0x3020 [.failure]) = false ∧ (∃ t, step (readyFor 0x3020 [.failure]) = .next t)
      ∧ ∀ a7, running (readyFor 0x3020 [.failure]) ≠ some (.init a7) :=
  ⟨rfl, ⟨_, rfl⟩, by decide⟩

theorem test_witness_AccChangesOnlyByIntEnable :
    resetPresented (readyFor 0x1053 [.failure]) = false ∧ (∃ t, step (readyFor 0x1053 [.failure]) = .next t)
      ∧ running (readyFor 0x1053 [.failure]) ≠ some .intEnable := ⟨rfl, ⟨_, rfl⟩, by decide⟩

theorem test_witness_ResponseHeldUntilComplete :
    resetPresented (readyFor 0x7000 []) = false ∧ ∃ t, step (readyFor 0x7000 []) = .next t := ⟨rfl, _, rfl⟩

theorem test_witness_NotReadyCommandsDoNothing :
    testsReady .intEnable = true ∧ encode .intEnable = .command 0x5000 ∧ (idleAt false [] []).rdy = false :=
  ⟨rfl, rfl, rfl⟩

theorem test_witness_ResponseParts :
    (isCommand .intHandle = true ∧ ∃ t, exec .intHandle (ready [.failure]) = .next t ∧ t.busy = false)
      ∧ (isCommand (.init 0x53) = true ∧ ∃ t, exec (.init 0x53) (ready [.failure]) = .next t ∧ t.busy = false) :=
  ⟨⟨rfl, _, rfl, rfl⟩, rfl, _, rfl, rfl⟩

/-- The unanswering transport answers nothing, the reference chip and a long enough script answer eight. -/
theorem test_answers : ∀ rs : List Request, rs.length ≤ 8 →
    ((Transport.scripted (List.replicate 8 ack)).replies rs).isSome = true := by
  intro rs h
  match rs, h with
  | [], _ => rfl
  | [_], _ => rfl
  | [_, _], _ => rfl
  | [_, _, _], _ => rfl
  | [_, _, _, _], _ => rfl
  | [_, _, _, _, _], _ => rfl
  | [_, _, _, _, _, _], _ => rfl
  | [_, _, _, _, _, _, _], _ => rfl
  | [_, _, _, _, _, _, _, _], _ => rfl

theorem test_witness_CommandsEndWhenAnswered :
    isCommand (.init 0x53) = true ∧ (ready (List.replicate 8 ack)).bus.Answers 8 :=
  ⟨rfl, fun rs h _ => test_answers rs h⟩

theorem test_witness_WaitingCommandEndsWhenAnswered :
    (waiting (List.replicate 8 ack)).Inv ∧ (waiting (List.replicate 8 ack)).busy = true
      ∧ resetPresented (waiting (List.replicate 8 ack)) = false ∧ (waiting (List.replicate 8 ack)).bus.Answers 8 :=
  ⟨test_inv_waiting _, rfl, rfl, fun rs h _ => test_answers rs h⟩

/-- A command that waits after two answers, and a register read that waits at its read phase. -/
theorem test_witness_ResumedRunIsTheWholeRun :
    (ready [ack]).Idle ∧ resetPresented (ready [ack]) = false
      ∧ (∃ t, exec .intHandle (ready [ack]) = .next t ∧ t.busy = true)
      ∧ ∃ t, exec .rdDevid (ready [ack]) = .next t ∧ t.busy = false ∧ t.req.isSome = true :=
  ⟨⟨rfl, rfl⟩, rfl, ⟨_, rfl, rfl⟩, _, rfl, rfl, rfl⟩

theorem test_witness_BusyMachineAcceptsNothing :
    (waiting [ack]).busy = true ∧ resetPresented (waiting [ack]) = false ∧ ∃ t, step (waiting [ack]) = .next t :=
  ⟨rfl, rfl, _, rfl⟩

theorem test_witness_BigStepIsTheStepTable :
    isCommand (.read 0b111) = true ∧ encode (.read 0b111) = .command 0x2700 := by decide

theorem test_witness_OnlyListedTransactions :
    (waiting [ack]).Inv ∧ running (waiting [ack]) = some (.setThresh 0x20) ∧ ∃ t, step (waiting [ack]) = .next t :=
  ⟨test_inv_waiting _, by decide, _, rfl⟩

/-- The clause about a register-level operation on its own. -/
theorem test_witness_OnlyListedTransactions_alone :
    resetPresented (withAnswers [ack] waitingRead) = false ∧ (withAnswers [ack] waitingRead).busy = false
      ∧ (withAnswers [ack] waitingRead).req = some (.read 0xA6 1) ∧ isCommand .rdDevid = false
      ∧ issues params .rdDevid (withAnswers [ack] waitingRead).devaddr (.read 0xA6 1) = true
      ∧ ∃ t, step (withAnswers [ack] waitingRead) = .next t := ⟨rfl, rfl, rfl, rfl, by decide, _, rfl⟩

/-- An idle machine of the invariant with DEVADDR a bus form. -/
theorem test_inv_idle (answers : List Answer) (inbox : List HostEvent) : (idleAt true answers inbox).Inv where
  bus_wf := rfl
  devaddr_even _ := (by decide : (0xA6 : Byte).getLsbD 0 = false)
  idle_step _ := rfl
  idle_req _ r h := by cases h
  idle_req_ready _ h := by cases h
  busy_row h := by cases h
  busy_ready h := by cases h

/-- One state for each of the four alternatives. -/
theorem test_witness_TransactionsBelongToCommands :
    ((waiting [ack]).Inv ∧ (waiting [ack]).CommandOnly ∧ ∃ t, step (waiting [ack]) = .next t)
      ∧ ((readyFor 0x8000 []).Inv ∧ (readyFor 0x8000 []).CommandOnly ∧ ∃ t, step (readyFor 0x8000 []) = .next t)
      ∧ ((idleAt true [] [.reset]).Inv ∧ (idleAt true [] [.reset]).CommandOnly
          ∧ ∃ t, step (idleAt true [] [.reset]) = .next t)
      ∧ ((ready []).Inv ∧ (ready []).CommandOnly ∧ ∃ t, step (ready []) = .next t) :=
  ⟨⟨test_inv_waiting _, ⟨rfl, fun h => by cases h⟩, _, rfl⟩, ⟨test_inv_idle _ _, ⟨rfl, fun _ => rfl⟩, _, rfl⟩,
    ⟨test_inv_idle _ _, ⟨rfl, fun _ => rfl⟩, _, rfl⟩, test_inv_idle _ _, ⟨rfl, fun _ => rfl⟩, _, rfl⟩

/-- A register-level operation presented on its own is not command-only. -/
theorem test_commandOnly_refuses : ¬(idleAt true [] [.issue (.registerOp [0x2E])]).CommandOnly ∧ ¬waitingRead.CommandOnly :=
  ⟨fun h => Bool.noConfusion h.1, fun h => Option.some_ne_none _ (h.2 rfl)⟩

theorem test_witness_UnspecifiedRegistersUnread_transactions :
    (waiting [ack]).Inv ∧ ∃ t, step (waiting [ack]) = .next t ∧ t.trace ≠ (waiting [ack]).trace :=
  ⟨test_inv_waiting _, _, rfl, by decide⟩

theorem test_witness_UnspecifiedRegistersUnread_ready :
    (readyFor 0x2700 [ack]).Idle ∧ (readyFor 0x2700 [ack]).rdy = true
      ∧ (readyFor 0x2700 [ack]).inbox = .issue (.command 0x2700) :: [] := ⟨⟨rfl, rfl⟩, rfl, rfl⟩

theorem test_witness_UnspecifiedRegistersUnread :
    (idleAt false [ack] [.issue (.command 0x1053)]).Idle ∧ (idleAt false [ack] [.issue (.command 0x1053)]).rdy = false
      ∧ (idleAt false [ack] [.issue (.command 0x1053)]).inbox = .issue (.command 0x1053) :: [] :=
  ⟨⟨rfl, rfl⟩, rfl, rfl⟩

theorem test_witness_InitWithIdentityMatched :
    (0xA6 : Byte) = busForm 0x53
      ∧ (idleAt false [ack, .success (bytes 0xE5), ack, ack, .failure, ack, ack, ack] []).bus.replies
          [.write 0xA6 [0x00], .read 0xA6 1, .write 0xA6 [0x2E, 0x00], .write 0xA6 [0x24, params.threshDefault],
            .write 0xA6 [0x27, params.actCtl], .write 0xA6 [0x2C, params.bwRate], .write 0xA6 [0x2E, params.intAct],
            .write 0xA6 [0x2D, params.measure]]
        = some ([ack, .success (bytes 0xE5), ack, ack, .failure, ack, ack, ack], .scripted [])
      ∧ (bytes 0xE5).b0 = 0xE5 := ⟨by decide, rfl, rfl⟩

theorem test_witness_InitWithIdentityRefused :
    (0xFE : Byte) = busForm 0x7F
      ∧ (ready [.failure]).bus.respond (.write 0xFE [0x00]) = some (.failure, .scripted [])
      ∧ (ready [ack, .failure]).bus.replies [.write 0xFE [0x00], .read 0xFE 1] = some ([ack, .failure], .scripted [])
      ∧ (ready [ack, .success (bytes 0xE4)]).bus.replies [.write 0xFE [0x00], .read 0xFE 1]
          = some ([ack, .success (bytes 0xE4)], .scripted [])
      ∧ (bytes 0xE4).b0 ≠ 0xE5 := ⟨by decide, rfl, rfl, rfl, by decide⟩

theorem test_witness_InitFrame :
    (withChip 0x50).bus.wf = true ∧ ∃ t, exec (.init 0x53) (withChip 0x50) = .next t := ⟨by decide, _, rfl⟩

theorem test_witness_SampleIsTwosComplement :
    (0x7F : Byte).toNat * 256 + (0xFF : Byte).toNat < 32768
      ∧ ¬(0x80 : Byte).toNat * 256 + (0x00 : Byte).toNat < 32768 := by decide

theorem test_witness_ReadWritesTheMaskedSlots :
    (ready [ack, ack, ack]).rdy = true
      ∧ (ready [ack, ack, ack]).bus.replies
          [.write 0xA6 [0x2D, params.measure], .write 0xA6 [0x32], .read 0xA6 6] = some ([ack, ack, ack], .scripted []) :=
  ⟨rfl, rfl⟩

theorem test_witness_ReadFailuresWriteNoSlot :
    (ready [.failure]).rdy = true
      ∧ (ready [.failure]).bus.respond (.write 0xA6 [0x2D, params.measure]) = some (.failure, .scripted [])
      ∧ (ready [ack, .failure]).bus.replies [.write 0xA6 [0x2D, params.measure], .write 0xA6 [0x32]]
          = some ([ack, .failure], .scripted [])
      ∧ (ready [ack, ack, .failure]).bus.replies
          [.write 0xA6 [0x2D, params.measure], .write 0xA6 [0x32], .read 0xA6 6]
          = some ([ack, ack, .failure], .scripted []) := ⟨rfl, rfl, rfl, rfl⟩

theorem test_witness_ReadFrame :
    (withChip 0x50).bus.wf = true ∧ (∃ t, exec (.read 0b101) (withChip 0x50) = .next t)
      ∧ (0b101 : BitVec 3).getLsbD 1 = false ∧ (0b010 : BitVec 3).getLsbD 0 = false
      ∧ (0b010 : BitVec 3).getLsbD 2 = false := ⟨by decide, ⟨_, rfl⟩, rfl, rfl, rfl⟩

theorem test_witness_SetThreshWritesTheOperand :
    (idleAt false [] []).rdy = false ∧ (ready [ack]).rdy = true
      ∧ (ready [ack]).bus.respond (.write 0xA6 [0x24, 0xFF]) = some (ack, .scripted []) := ⟨rfl, rfl, rfl⟩

theorem test_witness_IntDisableWritesZero :
    (idleAt false [] []).rdy = false ∧ (ready [.failure]).rdy = true
      ∧ (ready [.failure]).bus.respond (.write 0xA6 [0x2E, 0x00]) = some (.failure, .scripted []) := ⟨rfl, rfl, rfl⟩

theorem test_witness_SingleWriteFrame :
    ((∃ v, Instr.setThresh 0x20 = .setThresh v) ∧ (0x24 : Byte) = 0x24)
      ∧ (Instr.intDisable = .intDisable ∧ (0x2E : Byte) = 0x2E) ∧ (withChip 0x50).bus.wf = true
      ∧ (∃ t, exec (.setThresh 0x20) (withChip 0x50) = .next t)
      ∧ ∃ t, exec .intDisable (withChip 0x50) = .next t :=
  ⟨⟨⟨_, rfl⟩, rfl⟩, ⟨rfl, rfl⟩, by decide, ⟨_, rfl⟩, _, rfl⟩

theorem test_witness_IntQueryTestsNonzero :
    (idleAt false [] []).rdy = false ∧ (ready [.failure]).rdy = true
      ∧ (ready [.failure]).bus.respond (.write 0xA6 [0x2E]) = some (.failure, .scripted [])
      ∧ (ready [ack, .failure]).bus.replies [.write 0xA6 [0x2E], .read 0xA6 1] = some ([ack, .failure], .scripted [])
      ∧ (ready [ack, ack]).bus.replies [.write 0xA6 [0x2E], .read 0xA6 1] = some ([ack, ack], .scripted []) :=
  ⟨rfl, rfl, rfl, rfl, rfl⟩

theorem test_witness_IntHandleDecodesEvents :
    (idleAt false [] []).rdy = false ∧ (ready [.failure]).rdy = true
      ∧ (ready [.failure]).bus.respond (.write 0xA6 [0x30]) = some (.failure, .scripted [])
      ∧ (ready [ack, .failure]).bus.replies [.write 0xA6 [0x30], .read 0xA6 1] = some ([ack, .failure], .scripted [])
      ∧ (ready [ack, ack]).bus.replies [.write 0xA6 [0x30], .read 0xA6 1] = some ([ack, ack], .scripted []) :=
  ⟨rfl, rfl, rfl, rfl, rfl⟩

theorem test_witness_SingleReadFrame :
    (withChip 0x50).bus.wf = true ∧ (∃ t, exec .intQuery (withChip 0x50) = .next t)
      ∧ ∃ t, exec .intHandle (withChip 0x50) = .next t ∧ t.draws = (withChip 0x50).draws :=
  ⟨by decide, ⟨_, rfl⟩, _, rfl, by decide⟩

theorem test_witness_IntEnableRunsSixWritesAndFlush :
    (ready []).rdy = true
      ∧ (ready [ack, .failure, ack, ack, ack, ack, ack, ack]).bus.replies
          [.write 0xA6 [0x2E, 0x00], .write 0xA6 [0x24, params.threshDefault], .write 0xA6 [0x27, params.actCtl],
            .write 0xA6 [0x2C, params.bwRate], .write 0xA6 [0x30], .read 0xA6 1, .write 0xA6 [0x2E, params.intAct],
            .write 0xA6 [0x2D, params.measure]]
        = some ([ack, .failure, ack, ack, ack, ack, ack, ack], .scripted [])
      ∧ (ready [ack, ack, ack, ack, ack, .failure, ack, ack]).bus.replies
          [.write 0xA6 [0x2E, 0x00], .write 0xA6 [0x24, params.threshDefault], .write 0xA6 [0x27, params.actCtl],
            .write 0xA6 [0x2C, params.bwRate], .write 0xA6 [0x30], .read 0xA6 1, .write 0xA6 [0x2E, params.intAct],
            .write 0xA6 [0x2D, params.measure]]
        = some ([ack, ack, ack, ack, ack, .failure, ack, ack], .scripted [])
      ∧ (ready [ack, ack, ack, ack, .failure, ack, ack]).bus.replies
          [.write 0xA6 [0x2E, 0x00], .write 0xA6 [0x24, params.threshDefault], .write 0xA6 [0x27, params.actCtl],
            .write 0xA6 [0x2C, params.bwRate], .write 0xA6 [0x30], .write 0xA6 [0x2E, params.intAct],
            .write 0xA6 [0x2D, params.measure]]
        = some ([ack, ack, ack, ack, .failure, ack, ack], .scripted []) := ⟨rfl, rfl, rfl, rfl⟩

/-- The hypotheses of `IntEnableResultForEveryFlushPos` at the flush positions 1 and 4. -/
theorem test_witness_IntEnableResultForEveryFlushPos :
    let ws := [ack, ack, .failure, ack, ack, ack]
    let requests := (configSequence exampleParams).map fun w => Request.write 0xA6 [w.1, w.2]
    (ready []).rdy = true ∧ ws.length = 6
      ∧ (ready (ws.take 1 ++ [ack, .failure] ++ ws.drop 1)).bus.replies
          (requests.take 1 ++ [.write 0xA6 [0x30], .read 0xA6 1] ++ requests.drop 1)
        = some (ws.take 1 ++ [ack, .failure] ++ ws.drop 1, .scripted [])
      ∧ (ready (ws.take 4 ++ [ack, ack] ++ ws.drop 4)).bus.replies
          (requests.take 4 ++ [.write 0xA6 [0x30], .read 0xA6 1] ++ requests.drop 4)
        = some (ws.take 4 ++ [ack, ack] ++ ws.drop 4, .scripted [])
      ∧ (ready (ws.take 1 ++ [.failure] ++ ws.drop 1)).bus.replies
          (requests.take 1 ++ [.write 0xA6 [0x30]] ++ requests.drop 1)
        = some (ws.take 1 ++ [.failure] ++ ws.drop 1, .scripted []) := ⟨rfl, rfl, rfl, rfl, rfl⟩

theorem test_witness_IntEnableFrame :
    (withChip 0x50).bus.wf = true ∧ ∃ t, exec .intEnable (withChip 0x50) = .next t := ⟨by decide, _, rfl⟩

theorem test_witness_RegisterWriteResults :
    (Instr.wrThreshAct 0x20 = .wrThreshAct 0x20 ∧ (0x24 : Byte) = 0x24)
      ∧ (Instr.wrActInactCtl 0x20 = .wrActInactCtl 0x20 ∧ (0x27 : Byte) = 0x27)
      ∧ (Instr.wrBwRate 0x20 = .wrBwRate 0x20 ∧ (0x2C : Byte) = 0x2C)
      ∧ (Instr.wrPowerCtl 0x20 = .wrPowerCtl 0x20 ∧ (0x2D : Byte) = 0x2D)
      ∧ (Instr.wrIntEnable 0x20 = .wrIntEnable 0x20 ∧ (0x2E : Byte) = 0x2E)
      ∧ ∀ r : Byte, (ready [.failure]).bus.respond (.write 0xA6 [r, 0x20]) = some (.failure, .scripted []) :=
  ⟨⟨rfl, rfl⟩, ⟨rfl, rfl⟩, ⟨rfl, rfl⟩, ⟨rfl, rfl⟩, ⟨rfl, rfl⟩, fun _ => rfl⟩

theorem test_witness_RegisterReadResults :
    (∀ r : Byte, (ready [ack, ack]).bus.replies [.write 0xA6 [r], .read 0xA6 1] = some ([ack, ack], .scripted []))
      ∧ (ready [ack, ack]).bus.replies [.write 0xA6 [0x32], .read 0xA6 6] = some ([ack, ack], .scripted []) :=
  ⟨fun _ => rfl, rfl⟩

theorem test_witness_RegisterReadFailures :
    (∀ r : Byte, (ready [.failure]).bus.respond (.write 0xA6 [r]) = some (.failure, .scripted []))
      ∧ ∀ (r : Byte) (n : Nat),
        (ready [ack, .failure]).bus.replies [.write 0xA6 [r], .read 0xA6 n] = some ([ack, .failure], .scripted []) :=
  ⟨fun _ => rfl, fun _ _ => rfl⟩

theorem test_witness_RegisterOperationFrame :
    (withChip 0x50).bus.wf = true
      ∧ (∃ t, exec (.wrThreshAct 0x20) (withChip 0x50) = .next t) ∧ (∃ t, exec (.wrActInactCtl 0x20) (withChip 0x50) = .next t)
      ∧ (∃ t, exec (.wrBwRate 0x20) (withChip 0x50) = .next t) ∧ (∃ t, exec (.wrPowerCtl 0x20) (withChip 0x50) = .next t)
      ∧ (∃ t, exec (.wrIntEnable 0x20) (withChip 0x50) = .next t) ∧ (∃ t, exec .rdDevid (withChip 0x50) = .next t)
      ∧ (∃ t, exec .rdIntEnable (withChip 0x50) = .next t) ∧ (∃ t, exec .rdIntSource (withChip 0x50) = .next t)
      ∧ ∃ t, exec .rdData (withChip 0x50) = .next t :=
  ⟨by decide, ⟨_, rfl⟩, ⟨_, rfl⟩, ⟨_, rfl⟩, ⟨_, rfl⟩, ⟨_, rfl⟩, ⟨_, rfl⟩, ⟨_, rfl⟩, ⟨_, rfl⟩, _, rfl⟩

theorem test_witness_RegReadIsTwoPhases :
    (ready [.failure]).bus.respond (.write 0xA6 [0x00]) = some (.failure, .scripted [])
      ∧ (ready [ack, .failure]).bus.replies [.write 0xA6 [0x00], .read 0xA6 1] = some ([ack, .failure], .scripted [])
      ∧ (ready [ack, ack]).bus.replies [.write 0xA6 [0x32], .read 0xA6 6] = some ([ack, ack], .scripted []) :=
  ⟨rfl, rfl, rfl⟩

theorem test_witness_InitConfiguresTheChip :
    (withChip 0x50).bus = .chip ((RefChip.fresh 0x53).setReg 0x30 0x50)
      ∧ ((RefChip.fresh 0x53).setReg 0x30 0x50).regs.wf = true
      ∧ ((RefChip.fresh 0x53).setReg 0x30 0x50).reg 0x00 = 0xE5
      ∧ (0x53 : BitVec 7) = ((RefChip.fresh 0x53).setReg 0x30 0x50).addr7
      ∧ (0x1D : BitVec 7) ≠ ((RefChip.fresh 0x53).setReg 0x30 0x50).addr7 := ⟨rfl, by decide, by decide, rfl, by decide⟩

/-- The hypotheses of the three statements about a ready machine wired to the reference chip. -/
theorem test_witness_chip_statements :
    (withChip 0x50).rdy = true ∧ (withChip 0x50).bus = .chip ((RefChip.fresh 0x53).setReg 0x30 0x50)
      ∧ ((RefChip.fresh 0x53).setReg 0x30 0x50).regs.wf = true
      ∧ (withChip 0x50).devaddr = busForm ((RefChip.fresh 0x53).setReg 0x30 0x50).addr7 :=
  ⟨rfl, rfl, by decide, by decide⟩

theorem test_witness_AssembledLinesDecode :
    0x7F ≤ 0x7F ∧ 0x00 ≤ 0x7F ∧ 0xFF ≤ 0xFF ∧ 0x7F < 0x80 ∧ 0xFF < 0x100
      ∧ assemble exampleParams (.init (some 0x7F)) = some 0x107F
      ∧ assemble exampleParams (.init (some 0x80)) = none ∧ assemble exampleParams (.setThresh 0xFF) = some 0x30FF
      ∧ assemble exampleParams (.setThresh 0x100) = none := by decide

end Sys2Proof.Tests
end

section
/-! PROOF. The big step of a command is the run of its step table (00_scope.md R14). The big step leaves STEP alone
until it waits or completes, and the table writes it at every row. So the rest of a big step, `go`, run at `s`, is
compared with the table run at `goto k s`. The rules follow the table row by row, and each command's proof builds its
table up from the last row to step 0. -/

namespace Sys2Proof.Machine

/-! ### A command between two rows -/

/-- Command `i` is accepted and no transaction is outstanding, so that its next row is run. -/
structure InProgress (i : Instr) (s : State) : Prop where
  busy : s.busy = true
  req : s.req = none
  command : currentCommand s = .instr i

/-- The decoder reads each command back from its word (30_encoding.md R82). -/
theorem decodeCommand_of_encode {i : Instr} {w : CmdWord} (h : encode i = .command w) :
    decodeCommand w = .instr i := by
  have hinit : ∀ a7 : BitVec 7, decodeCommand (initWord a7) = .instr (.init a7) := by decide
  have hread : ∀ mask : BitVec 3, decodeCommand (readWord mask) = .instr (.read mask) := by decide
  have hthresh : ∀ t : Byte, decodeCommand (setThreshWord t) = .instr (.setThresh t) := by decide
  cases i <;> cases h
  case init a7 => exact hinit a7
  case read mask => exact hread mask
  case setThresh t => exact hthresh t
  all_goals decide

theorem inProgress_accept {i : Instr} {w : CmdWord} (h : encode i = .command w) (s : State) :
    InProgress i (accept w s) :=
  ⟨rfl, rfl, (currentCommand_accept w s).trans (decodeCommand_of_encode h)⟩

namespace InProgress

variable {i : Instr} {s : State}

theorem answered (h : InProgress i s) (e : Event) (t : Transport) : InProgress i (answered e t s) :=
  ⟨h.busy, rfl, h.command⟩

theorem fillBuf (h : InProgress i s) (n : Nat) (d : Bytes6) : InProgress i (fillBuf n d s) :=
  ⟨h.busy, h.req, h.command⟩

theorem scrambleBuf (h : InProgress i s) : InProgress i (scrambleBuf s) := ⟨h.busy, h.req, h.command⟩

theorem foldRdy (h : InProgress i s) (ok : Bool) : InProgress i (foldRdy ok s) := ⟨h.busy, h.req, h.command⟩

theorem foldAcc (h : InProgress i s) (ok : Bool) : InProgress i (foldAcc ok s) := ⟨h.busy, h.req, h.command⟩

theorem beginInit (h : InProgress i s) (a7 : BitVec 7) : InProgress i (beginInit a7 s) := ⟨h.busy, h.req, h.command⟩

theorem setReady (h : InProgress i s) : InProgress i (setReady s) := ⟨h.busy, h.req, h.command⟩

theorem setAcc (h : InProgress i s) : InProgress i (setAcc s) := ⟨h.busy, h.req, h.command⟩

theorem waitSettle (h : InProgress i s) (P : Params) : InProgress i (waitSettle P s) := ⟨h.busy, h.req, h.command⟩

theorem goto (h : InProgress i s) (k : BitVec 4) : InProgress i (goto k s) := ⟨h.busy, h.req, h.command⟩

end InProgress

/-! ### After a row -/

/-- What a run of a table makes of a row's outcome: it goes on, or ends where the command completed or waits. -/
def afterRow (P : Params) (n : Nat) (t : State) : Result :=
  if t.busy && t.req.isNone then runSteps P n t else .next t

theorem afterRow_of_ended {P : Params} {n : Nat} {t : State} (h : t.busy = false) : afterRow P n t = .next t := by
  simp [afterRow, h]

theorem afterRow_await (P : Params) (n : Nat) (k : BitVec 4) (r : Request) (s : State) :
    afterRow P n (await k r s) = .next (await k r s) := by
  simp [afterRow]

theorem InProgress.afterRow {i : Instr} {s : State} (h : InProgress i s) (P : Params) (n : Nat) :
    afterRow P n s = runSteps P n s := by
  simp [Machine.afterRow, h.busy, h.req]

/-! ### The comparison and its rules -/

/-- Command `i`'s table, run from step `k`, does what `go` does; `m` rows are enough. -/
def TableDoes (P : Params) (i : Instr) (m : Nat) (k : BitVec 4) (go : State → State) : Prop :=
  ∀ n s, m ≤ n → InProgress i s → .next (go s) = runSteps P n (goto k s)

/-- `row`, standing at step `k`, and then command `i`'s table do what `go` does; `m` rows after it are enough. -/
def RowDoes (P : Params) (i : Instr) (m : Nat) (k : BitVec 4) (go row : State → State) : Prop :=
  ∀ n s, m ≤ n → InProgress i s → .next (go s) = afterRow P n (row (goto k s))

section Rules

variable {P : Params} {i : Instr} {m : Nat} {k : BitVec 4}

/-- The table from step `k` on is its row there and the rest. -/
theorem TableDoes.of_row {go row : State → State}
    (hrow : ∀ s, tickCommand P i (goto k s) = some (row (goto k s))) (h : RowDoes P i m k go row) :
    TableDoes P i (m + 1) k go := by
  intro n s hn hs
  obtain ⟨n, rfl⟩ := Nat.exists_eq_add_one.2 (Nat.lt_of_lt_of_le (Nat.succ_pos m) hn)
  rw [runSteps_row (hs.goto k).command (hrow s)]
  exact h n s (Nat.le_of_succ_le_succ hn) hs

/-- A row that ends the command. -/
theorem RowDoes.ends {go row : State → State} (hrow : ∀ s, row (goto k s) = go s)
    (hend : ∀ s, (go s).busy = false) : RowDoes P i m k go row := by
  intro n s _ _
  rw [hrow, afterRow_of_ended (hend s)]

/-- A row that stores and goes on to step `k'`. -/
theorem RowDoes.goes_on {store go row : State → State} {k' : BitVec 4} {m' : Nat}
    (h : TableDoes P i m' k' go) (hm : m' ≤ m) (hrow : ∀ s, row (goto k s) = goto k' (store s))
    (hstore : ∀ s, InProgress i s → InProgress i (store s)) : RowDoes P i m k (fun s => go (store s)) row := by
  intro n s hn hs
  rw [hrow, ((hstore s hs).goto k').afterRow]
  exact h n (store s) (hm.trans hn) (hstore s hs)

/-- A row that stores nothing more and goes on to step `k'`. -/
theorem RowDoes.goes_to {go row : State → State} {k' : BitVec 4} {m' : Nat} (h : TableDoes P i m' k' go)
    (hm : m' ≤ m) (hrow : ∀ s, row (goto k s) = goto k' s) : RowDoes P i m k go row :=
  .goes_on (store := id) h hm hrow fun _ hs => hs

/-- The last row of a table, without a transaction. -/
theorem TableDoes.ends {go : State → State} (hrow : ∀ s, tickCommand P i (goto k s) = some (go s))
    (hgoto : ∀ s, go (goto k s) = go s) (hend : ∀ s, (go s).busy = false) : TableDoes P i (m + 1) k go :=
  .of_row (fun s => (hrow s).trans (congrArg some (hgoto s).symm)) (.ends hgoto hend)

/-- A row without a transaction, which stores and goes on to step `k'`. -/
theorem TableDoes.goes_on {store go : State → State} {k' : BitVec 4} (h : TableDoes P i m k' go)
    (hrow : ∀ s, tickCommand P i (goto k s) = some (goto k' (store s)))
    (hgoto : ∀ s, goto k' (store (goto k s)) = goto k' (store s))
    (hstore : ∀ s, InProgress i s → InProgress i (store s)) : TableDoes P i (m + 1) k fun s => go (store s) :=
  .of_row (row := fun s => goto k' (store s)) (fun s => (hrow s).trans (congrArg some (hgoto s).symm))
    (.goes_on h le_rfl hgoto hstore)

/-- A row that tests RDY (10_state.md R36). -/
theorem RowDoes.ifReady {go row : State → State} (h : RowDoes P i m k go row) :
    RowDoes P i m k (fun s => ifReady s go) (fun s => ifReady s row) := by
  intro n s hn hs
  beta_reduce
  cases hr : s.rdy with
  | false =>
    rw [ifReady_of_not_ready hr, ifReady_of_not_ready (s := goto k s) hr, afterRow_of_ended rfl]
    rfl
  | true =>
    rw [ifReady_of_ready hr, ifReady_of_ready (s := goto k s) hr]
    exact h n s hn hs

/-- A row with a write transaction: both wait at it, or go on with its status. -/
theorem RowDoes.busWrite {bytes : List Byte} {go row : Bool → State → State}
    (h : ∀ ok, RowDoes P i m k (go ok) (row ok)) :
    RowDoes P i m k (fun s => busWrite k bytes s go) (fun s => busWrite k bytes s row) := by
  intro n s hn hs
  beta_reduce
  cases hr : s.bus.respond (.write s.devaddr bytes) with
  | none =>
    rw [busWrite_none hr, busWrite_none (s := goto k s) hr, afterRow_await]
    rfl
  | some p =>
    rw [busWrite_some hr, busWrite_some (s := goto k s) hr]
    exact h _ n _ hn (hs.answered _ _)

/-- A row with a read transaction: both wait at it, or go on with its status and the buffer. -/
theorem RowDoes.busRead {c : Nat} {go row : Bool → State → State}
    (h : ∀ ok, RowDoes P i m k (go ok) (row ok)) :
    RowDoes P i m k (fun s => busRead k c s go) (fun s => busRead k c s row) := by
  intro n s hn hs
  beta_reduce
  cases hr : s.bus.respond (.read s.devaddr c) with
  | none =>
    rw [busRead_none hr, busRead_none (s := goto k s) hr, afterRow_await]
    rfl
  | some p =>
    obtain ⟨a, t⟩ := p
    cases a with
    | success d =>
      rw [busRead_success hr, busRead_success (s := goto k s) hr]
      exact h true n _ hn ((hs.answered _ _).fillBuf _ _)
    | failure =>
      rw [busRead_failure hr, busRead_failure (s := goto k s) hr]
      exact h false n _ hn (hs.answered _ _).scrambleBuf

/-- A row that branches on the state, though not on STEP. -/
theorem RowDoes.ite {c : State → Bool} {go₁ go₂ row₁ row₂ : State → State} (hc : ∀ s, c (goto k s) = c s)
    (h₁ : RowDoes P i m k go₁ row₁) (h₂ : RowDoes P i m k go₂ row₂) :
    RowDoes P i m k (fun s => if c s then go₁ s else go₂ s) (fun s => if c s then row₁ s else row₂ s) := by
  intro n s hn hs
  beta_reduce
  rw [hc]
  split
  · exact h₁ n s hn hs
  · exact h₂ n s hn hs

/-- The row at step 0 of every command but INIT and INT_ENABLE, then the table from step 1. -/
theorem TableDoes.testReady {go : State → State}
    (hrow : ∀ s, tickCommand P i (goto 0 s) = some (rowTestReady (goto 0 s))) (h : TableDoes P i m 1 go) :
    TableDoes P i (m + 1) 0 fun s => ifReady s go :=
  .of_row hrow (.ifReady (.goes_to h le_rfl fun _ => rfl))

/-- A write whose failure ends the command, then the table from the next step. -/
theorem TableDoes.writeOrStop {k' : BitVec 4} {bytes : List Byte} {go : Bool → State → State} (hk : k' = k + 1)
    (hrow : ∀ s, tickCommand P i (goto k s) = some (rowWriteOrStop k bytes (goto k s)))
    (hfail : ∀ s, go false s = complete false 0 s) (h : TableDoes P i m k' (go true)) :
    TableDoes P i (m + 1) k fun s => busWrite k bytes s go := by
  subst hk
  refine .of_row hrow (.busWrite fun ok => ?_)
  cases ok with
  | false => exact .ends (fun s => (hfail s).symm) fun s => by rw [hfail]; rfl
  | true => exact .goes_to h le_rfl fun _ => rfl

/-- A register read in two rows, a failed select ending the command. -/
theorem TableDoes.regReadOrStop {k' : BitVec 4} {r : Byte} {c : Nat} {go row : Bool → State → State}
    (hk : k' = k + 1)
    (hselect : ∀ s, tickCommand P i (goto k s) = some (rowWriteOrStop k [r] (goto k s)))
    (hread : ∀ s, tickCommand P i (goto k' s) = some (busRead k' c (goto k' s) row))
    (hfail : ∀ s, go false s = complete false 0 s) (h : ∀ ok, RowDoes P i m k' (go ok) (row ok)) :
    TableDoes P i (m + 2) k fun s => regRead k k' r c s go :=
  .writeOrStop (go := fun ok s => if ok then busRead k' c s go else go false s) hk hselect hfail
    (.of_row hread (.busRead h))

/-- A fold of a status is fit for a table: it leaves the command in progress and does not look at STEP. -/
structure FoldsStatus (fold : Bool → State → State) : Prop where
  inProgress : ∀ {i s}, InProgress i s → ∀ ok, InProgress i (fold ok s)
  goto_fold : ∀ {k k' ok s}, goto k' (fold ok (goto k s)) = goto k' (fold ok s)

theorem foldsStatus_foldRdy : FoldsStatus foldRdy := ⟨InProgress.foldRdy, rfl⟩

theorem foldsStatus_foldAcc : FoldsStatus foldAcc := ⟨InProgress.foldAcc, rfl⟩

/-- Configuration writes, one row each from step `k` on, then the table from the step after them. -/
theorem TableDoes.configWrites {fold : Bool → State → State} {go : State → State} (hfold : FoldsStatus fold) :
    ∀ {ws : List (Byte × Byte)} {k : Nat},
      (∀ j w, ws[j]? = some w → ∀ s, tickCommand P i (goto (BitVec.ofNat 4 (k + j)) s)
        = some (rowConfig (BitVec.ofNat 4 (k + j)) fold w (goto (BitVec.ofNat 4 (k + j)) s))) →
      TableDoes P i m (BitVec.ofNat 4 (k + ws.length)) go →
      TableDoes P i (m + ws.length) (BitVec.ofNat 4 k) fun s => configWrites (BitVec.ofNat 4 k) fold ws s go := by
  intro ws
  induction ws with
  | nil => intro k _ h; exact h
  | cons w ws ih =>
    intro k hrows h
    have hrest : TableDoes P i (m + ws.length) (BitVec.ofNat 4 (k + 1)) fun s =>
        Machine.configWrites (BitVec.ofNat 4 (k + 1)) fold ws s go :=
      ih (fun j w' hj => by rw [Nat.add_right_comm, Nat.add_assoc]; exact hrows (j + 1) w' hj)
        (by rwa [Nat.add_right_comm, Nat.add_assoc])
    rw [BitVec.ofNat_add] at hrest
    exact .of_row (row := rowConfig (BitVec.ofNat 4 k) fold w) (hrows 0 w rfl) <|
      RowDoes.busWrite (row := fun ok s => goto (BitVec.ofNat 4 k + 1) (fold ok s)) fun ok =>
        .goes_on hrest le_rfl (fun _ => hfold.goto_fold) fun _ hs => hfold.inProgress hs ok

/-- The run of an accepted command from its step 0. -/
theorem TableDoes.run_accept {go : State → State} {w : CmdWord} {n : Nat} (h : TableDoes P i m 0 go) (hm : m ≤ n)
    (hw : encode i = .command w) (s : State) : .next (go (accept w s)) = runSteps P n (accept w s) :=
  h n (accept w s) hm (inProgress_accept hw s)

end Rules

/-! ### The seven tables -/

theorem setThreshCommand_eq_runSteps (P : Params) (t : Byte) (s : State) :
    .next (setThreshCommand t s) = runSteps P 10 (accept (setThreshWord t) s) := by
  have hwrite : TableDoes P (.setThresh t) 1 1 fun s => busWrite 1 [regThreshAct, t] s fun ok s => complete ok 0 s :=
    .of_row (fun _ => rfl) (.busWrite fun _ => .ends (fun _ => rfl) fun _ => rfl)
  exact (TableDoes.testReady (fun _ => rfl) hwrite).run_accept (by decide) rfl s

theorem intDisableCommand_eq_runSteps (P : Params) (s : State) :
    .next (intDisableCommand s) = runSteps P 10 (accept 0x6000 s) := by
  have hwrite : TableDoes P .intDisable 1 1 fun s => busWrite 1 [regIntEnable, 0x00] s fun ok s => complete ok 0 s :=
    .of_row (fun _ => rfl) (.busWrite fun _ => .ends (fun _ => rfl) fun _ => rfl)
  exact (TableDoes.testReady (fun _ => rfl) hwrite).run_accept (by decide) rfl s

theorem intQueryCommand_eq_runSteps (P : Params) (s : State) :
    .next (intQueryCommand s) = runSteps P 10 (accept 0x4000 s) := by
  have hread : TableDoes P .intQuery 2 1 fun s =>
      regRead 1 2 regIntEnable 1 s fun ok s => complete (ok && anyEnabled s.buf.b0) 0 s :=
    .regReadOrStop rfl (fun _ => rfl) (fun _ => rfl) (fun _ => rfl) fun _ => .ends (fun _ => rfl) fun _ => rfl
  exact (TableDoes.testReady (fun _ => rfl) hread).run_accept (by decide) rfl s

theorem intHandleCommand_eq_runSteps (P : Params) (s : State) :
    .next (intHandleCommand s) = runSteps P 10 (accept 0x7000 s) := by
  have hread : TableDoes P .intHandle 2 1 fun s =>
      regRead 1 2 regIntSource 1 s fun ok s => complete false (if ok then decodeEvents s.buf.b0 else 0) s :=
    .regReadOrStop rfl (fun _ => rfl) (fun _ => rfl) (fun _ => rfl) fun _ => .ends (fun _ => rfl) fun _ => rfl
  exact (TableDoes.testReady (fun _ => rfl) hread).run_accept (by decide) rfl s

/-- What READ does with its burst's outcome: the slots take the samples, or the command fails (43_read.md R185,
R186). -/
def endRead (mask : BitVec 3) (ok : Bool) (s : State) : State :=
  if ok then complete true 0 (writeSlots mask s) else complete false 0 s

/-- READ's burst at steps 3 and 4, and the slots at step 5. -/
theorem readBurst_tableDoes (P : Params) (mask : BitVec 3) :
    TableDoes P (.read mask) 3 3 fun s => readBurst s (endRead mask) := by
  have hslots : TableDoes P (.read mask) 1 5 (endRead mask true) :=
    .ends (fun _ => rfl) (fun _ => rfl) fun _ => rfl
  have hread : TableDoes P (.read mask) 2 4 fun s => busRead 4 6 s (endRead mask) := by
    refine .of_row (fun _ => rfl) (.busRead fun ok => ?_)
    cases ok with
    | false => exact .ends (fun _ => rfl) fun _ => rfl
    | true => exact .goes_to hslots le_rfl fun _ => rfl
  simp only [readBurst, regSelect_eq]
  refine .of_row (fun _ => rfl) (.busWrite fun ok => ?_)
  cases ok with
  | false => exact .ends (fun _ => rfl) fun _ => rfl
  | true => exact .goes_to hread le_rfl fun _ => rfl

theorem readCommand_eq_runSteps (P : Params) (mask : BitVec 3) (s : State) :
    .next (readCommand P mask s) = runSteps P 10 (accept (readWord mask) s) := by
  have hwait : TableDoes P (.read mask) 4 2 fun s => readBurst (waitSettle P s) (endRead mask) :=
    .goes_on (readBurst_tableDoes P mask) (fun _ => rfl) (fun _ => rfl) fun _ hs => hs.waitSettle P
  have hmode : TableDoes P (.read mask) 5 1 fun s => regWrite 1 regPowerCtl [P.measure] s fun ok s =>
      if ok then readBurst (waitSettle P s) (endRead mask) else complete false 0 s :=
    .writeOrStop rfl (fun _ => rfl) (fun _ => rfl) hwait
  exact (TableDoes.testReady (fun _ => rfl) hmode).run_accept (by decide) rfl s

/-- INIT's rows 3 to 8 are the configuration writes (42_init.md R173). -/
theorem tickInit_config {P : Params} {a7 : BitVec 7} {j : Nat} {w : Byte × Byte}
    (h : (configSequence P)[j]? = some w) (s : State) :
    tickCommand P (.init a7) (goto (BitVec.ofNat 4 (3 + j)) s)
      = some (rowConfig (BitVec.ofNat 4 (3 + j)) foldRdy w (goto (BitVec.ofNat 4 (3 + j)) s)) := by
  match j, h with
  | 0, h | 1, h | 2, h | 3, h | 4, h | 5, h => cases h; rfl
  | _ + 6, h => cases h

/-- What INIT does with its identity read's outcome: it configures the chip on a match, or fails (42_init.md R165,
R166). -/
def configureOnMatch (P : Params) (ok : Bool) (s : State) : State :=
  if ok && idMatch s.buf.b0 then
    configWrites 3 foldRdy (configSequence P) (setReady s) fun s => complete s.rdy 0 s
  else complete false 0 s

theorem initCommand_eq_runSteps (P : Params) (a7 : BitVec 7) (s : State) :
    .next (initCommand P a7 s) = runSteps P 10 (accept (initWord a7) s) := by
  have hend : TableDoes P (.init a7) 1 9 fun s => complete s.rdy 0 s :=
    .ends (fun _ => rfl) (fun _ => rfl) fun _ => rfl
  have hconfig : TableDoes P (.init a7) 7 3 fun s =>
      configWrites 3 foldRdy (configSequence P) s fun s => complete s.rdy 0 s :=
    TableDoes.configWrites foldsStatus_foldRdy (k := 3) (fun _ _ => tickInit_config) hend
  have hidentity : TableDoes P (.init a7) 9 1 fun s => regRead 1 2 regDevid 1 s (configureOnMatch P) :=
    .regReadOrStop rfl (fun _ => rfl) (fun _ => rfl) (fun _ => rfl) fun _ =>
      .ite (fun _ => rfl)
        (.goes_on (store := setReady) hconfig le_rfl (fun _ => rfl) fun _ hs => hs.setReady)
        (.ends (fun _ => rfl) fun _ => rfl)
  have hbegin : TableDoes P (.init a7) 10 0 fun s => regRead 1 2 regDevid 1 (beginInit a7 s) (configureOnMatch P) :=
    .goes_on hidentity (fun _ => rfl) (fun _ => rfl) fun _ hs => hs.beginInit a7
  exact hbegin.run_accept le_rfl rfl s

/-! INT_ENABLE's table has its flush after write `p`, for every `P_FLUSH_POS` (45_interrupts.md R212). -/

theorem flushPos_toNat_le (p : FlushPos) : p.toNat ≤ 4 := by cases p <;> decide

/-- A row of INT_ENABLE with a configuration write: the sequence's write `k` before the flush, `k - 2` after it. -/
theorem tickIntEnable_config {P : Params} {k : Nat} {w : Byte × Byte} (h1 : 1 ≤ k) (h8 : k ≤ 8)
    (hselect : k ≠ P.flushPos.toNat + 1) (hread : k ≠ P.flushPos.toNat + 2)
    (hw : (configSequence P)[if k ≤ P.flushPos.toNat then k - 1 else k - 3]? = some w) (s : State) :
    tickCommand P .intEnable (goto (BitVec.ofNat 4 k) s)
      = some (rowConfig (BitVec.ofNat 4 k) foldAcc w (goto (BitVec.ofNat 4 k) s)) := by
  have hk : (BitVec.ofNat 4 k).toNat = k := by rw [BitVec.toNat_ofNat]; omega
  have h0 : k ≠ 0 := by omega
  have h9 : k ≠ 9 := by omega
  simp [tickCommand, tickIntEnable, hk, h0, h9, h8, hselect, hread, hw]

theorem tickIntEnable_select (P : Params) (s : State) :
    tickCommand P .intEnable (goto (BitVec.ofNat 4 (P.flushPos.toNat + 1)) s)
      = some (busWrite (BitVec.ofNat 4 (P.flushPos.toNat + 1)) [regIntSource]
          (goto (BitVec.ofNat 4 (P.flushPos.toNat + 1)) s) fun ok s =>
            goto (BitVec.ofNat 4 (if ok then P.flushPos.toNat + 2 else P.flushPos.toNat + 3)) s) := by
  have hp := flushPos_toNat_le P.flushPos
  have hk : (BitVec.ofNat 4 (P.flushPos.toNat + 1)).toNat = P.flushPos.toNat + 1 := by rw [BitVec.toNat_ofNat]; omega
  have h9 : P.flushPos.toNat ≠ 8 := by omega
  simp [tickCommand, tickIntEnable, hk, h9]

theorem tickIntEnable_read (P : Params) (s : State) :
    tickCommand P .intEnable (goto (BitVec.ofNat 4 (P.flushPos.toNat + 2)) s)
      = some (busRead (BitVec.ofNat 4 (P.flushPos.toNat + 2)) 1
          (goto (BitVec.ofNat 4 (P.flushPos.toNat + 2)) s) fun _ s =>
            goto (BitVec.ofNat 4 (P.flushPos.toNat + 3)) s) := by
  have hp := flushPos_toNat_le P.flushPos
  have hk : (BitVec.ofNat 4 (P.flushPos.toNat + 2)).toNat = P.flushPos.toNat + 2 := by rw [BitVec.toNat_ofNat]; omega
  have h9 : P.flushPos.toNat ≠ 7 := by omega
  simp [tickCommand, tickIntEnable, hk, h9]

/-- INT_ENABLE's writes after the flush, and its end. -/
def writesAfterFlush (P : Params) (s : State) : State :=
  configWrites (BitVec.ofNat 4 (P.flushPos.toNat + 3)) foldAcc ((configSequence P).drop P.flushPos.toNat) s fun s =>
    complete s.acc 0 s

/-- INT_ENABLE's flush, its outcome ignored (45_interrupts.md R208), and what follows it. -/
def flushAndAfter (P : Params) (s : State) : State :=
  regRead (BitVec.ofNat 4 (P.flushPos.toNat + 1)) (BitVec.ofNat 4 (P.flushPos.toNat + 2)) regIntSource 1 s fun _ s =>
    writesAfterFlush P s

theorem writesAfterFlush_tableDoes (P : Params) :
    TableDoes P .intEnable (7 - P.flushPos.toNat) (BitVec.ofNat 4 (P.flushPos.toNat + 3)) (writesAfterFlush P) := by
  have hp := flushPos_toNat_le P.flushPos
  have hlen : ((configSequence P).drop P.flushPos.toNat).length = 6 - P.flushPos.toNat := List.length_drop
  have hend : TableDoes P .intEnable 1 9 fun s => complete s.acc 0 s :=
    .ends (fun _ => rfl) (fun _ => rfl) fun _ => rfl
  rw [show 7 - P.flushPos.toNat = 1 + ((configSequence P).drop P.flushPos.toNat).length by omega]
  refine TableDoes.configWrites foldsStatus_foldAcc (fun j w hj s => ?_) ?_
  · obtain ⟨hj6, -⟩ := List.getElem?_eq_some_iff.1 hj
    rw [List.getElem?_drop] at hj
    refine tickIntEnable_config (by omega) (by omega) (by omega) (by omega) ?_ s
    rwa [if_neg (by omega), show P.flushPos.toNat + 3 + j - 3 = P.flushPos.toNat + j by omega]
  · rwa [show P.flushPos.toNat + 3 + ((configSequence P).drop P.flushPos.toNat).length = 9 by omega]

theorem flushAndAfter_tableDoes (P : Params) :
    TableDoes P .intEnable (9 - P.flushPos.toNat) (BitVec.ofNat 4 (P.flushPos.toNat + 1)) (flushAndAfter P) := by
  have hp := flushPos_toNat_le P.flushPos
  have hafter := writesAfterFlush_tableDoes P
  have hread := TableDoes.of_row (tickIntEnable_read P) (.busRead fun _ =>
    .goes_to hafter le_rfl fun _ => rfl)
  rw [show 9 - P.flushPos.toNat = 7 - P.flushPos.toNat + 1 + 1 by omega]
  unfold flushAndAfter
  simp only [regRead_eq]
  refine .of_row (tickIntEnable_select P) (.busWrite fun ok => ?_)
  cases ok with
  | false => exact .goes_to hafter (Nat.le_succ _) fun _ => rfl
  | true => exact .goes_to hread le_rfl fun _ => rfl

theorem intEnableCommand_eq_runSteps (P : Params) (s : State) :
    .next (intEnableCommand P s) = runSteps P 10 (accept 0x5000 s) := by
  have hp := flushPos_toNat_le P.flushPos
  have hlen : ((configSequence P).take P.flushPos.toNat).length = P.flushPos.toNat := by
    rw [List.length_take]; exact Nat.min_eq_left (hp.trans (Nat.le_add_left 4 2))
  have hwrites : TableDoes P .intEnable (9 - P.flushPos.toNat + ((configSequence P).take P.flushPos.toNat).length) 1
      fun s => configWrites 1 foldAcc ((configSequence P).take P.flushPos.toNat) s (flushAndAfter P) := by
    refine TableDoes.configWrites foldsStatus_foldAcc (k := 1) (fun j w hj s => ?_) ?_
    · obtain ⟨hjp, -⟩ := List.getElem?_eq_some_iff.1 hj
      rw [hlen] at hjp
      rw [List.getElem?_take_of_lt hjp] at hj
      refine tickIntEnable_config (by omega) (by omega) (by omega) (by omega) ?_ s
      rwa [if_pos (by omega), Nat.add_sub_cancel_left]
    · rw [hlen, Nat.add_comm]
      exact flushAndAfter_tableDoes P
  have hready := TableDoes.of_row (k := 0) (fun _ => rfl) (.ifReady (row := fun s => goto 1 (setAcc s))
    (.goes_on (store := setAcc) hwrites le_rfl (fun _ => rfl) fun _ hs => hs.setAcc))
  exact hready.run_accept (by omega) rfl s

/-- Settles O25: each command by its own table. -/
theorem bigStepIsTheStepTable : Obligations.BigStepIsTheStepTable := by
  intro i w s hc hw
  cases i with
  | init a7 => cases hw; exact initCommand_eq_runSteps params a7 s
  | read mask => cases hw; exact readCommand_eq_runSteps params mask s
  | setThresh t => cases hw; exact setThreshCommand_eq_runSteps params t s
  | intQuery => cases hw; exact intQueryCommand_eq_runSteps params s
  | intEnable => cases hw; exact intEnableCommand_eq_runSteps params s
  | intDisable => cases hw; exact intDisableCommand_eq_runSteps params s
  | intHandle => cases hw; exact intHandleCommand_eq_runSteps params s
  | wrThreshAct _ | wrActInactCtl _ | wrBwRate _ | wrPowerCtl _ | wrIntEnable _ => cases hc
  | rdDevid | rdIntEnable | rdIntSource | rdData => cases hc

end Sys2Proof.Machine
end

section
/-! PROOF. What one step can do, said once (10_state.md R26, R33 to R38). A row of a step table waits, ends its command
or goes on; between rows only transactions and the command's own stores change the state. A step of the machine is a
reset, the run of a command's table, a register-level operation, or takes something that runs nothing. -/

namespace Sys2Proof.Machine

/-! ### What changes between two rows -/

/-- `u` is `s` after transactions and waits: only BUF, the transport, the trace, the port and the draws differ. -/
def Transacted (s u : State) : Prop :=
  ∃ buf bus trace req draws, (s.bus.wf = true → bus.wf = true)
    ∧ u = { s with buf := buf, bus := bus, trace := trace, req := req, draws := draws }

namespace Transacted

variable {s u : State}

theorem refl (s : State) : Transacted s s := ⟨_, _, _, _, _, id, rfl⟩

theorem answered (h : Transacted s u) (e : Event) {r : Request} {a : Answer} {t : Transport}
    (hr : u.bus.respond r = some (a, t)) : Transacted s (answered e t u) := by
  obtain ⟨_, _, _, _, _, hwf, rfl⟩ := h
  exact ⟨_, _, _, _, _, fun hs => Transport.respond_wf hr (hwf hs), rfl⟩

theorem fillBuf (h : Transacted s u) (n : Nat) (d : Bytes6) : Transacted s (fillBuf n d u) := by
  obtain ⟨_, _, _, _, _, hwf, rfl⟩ := h
  exact ⟨_, _, _, _, _, hwf, rfl⟩

theorem scrambleBuf (h : Transacted s u) : Transacted s (scrambleBuf u) := by
  obtain ⟨_, _, _, _, _, hwf, rfl⟩ := h
  exact ⟨_, _, _, _, _, hwf, rfl⟩

theorem waitSettle (h : Transacted s u) (P : Params) : Transacted s (waitSettle P u) := by
  obtain ⟨_, _, _, _, _, hwf, rfl⟩ := h
  exact ⟨_, _, _, _, _, hwf, rfl⟩

theorem devaddr (h : Transacted s u) : u.devaddr = s.devaddr := by obtain ⟨_, _, _, _, _, _, rfl⟩ := h; rfl

theorem rdy (h : Transacted s u) : u.rdy = s.rdy := by obtain ⟨_, _, _, _, _, _, rfl⟩ := h; rfl

theorem busy (h : Transacted s u) : u.busy = s.busy := by obtain ⟨_, _, _, _, _, _, rfl⟩ := h; rfl

theorem stepNo (h : Transacted s u) : u.stepNo = s.stepNo := by obtain ⟨_, _, _, _, _, _, rfl⟩ := h; rfl

theorem currentCommand (h : Transacted s u) : currentCommand u = currentCommand s := by
  obtain ⟨_, _, _, _, _, _, rfl⟩ := h; rfl

theorem bus_wf (h : Transacted s u) (hs : s.bus.wf = true) : u.bus.wf = true := by
  obtain ⟨_, _, _, _, _, hwf, rfl⟩ := h; exact hwf hs

/-- A write waits, or goes on after a transaction that leaves nothing outstanding. -/
theorem busWrite_ind {Q : State → Prop} {k : BitVec 4} {bytes : List Byte} {go : Bool → State → State}
    (hwait : Q (await k (.write s.devaddr bytes) s))
    (hgo : ∀ ok u, Transacted s u → u.req = none → Q (go ok u)) : Q (busWrite k bytes s go) :=
  Machine.busWrite_ind (fun _ => hwait) fun _ _ h => hgo _ _ ((refl s).answered _ h) rfl

/-- The same of a read. -/
theorem busRead_ind {Q : State → Prop} {k : BitVec 4} {n : Nat} {go : Bool → State → State}
    (hwait : Q (await k (.read s.devaddr n) s))
    (hgo : ∀ ok u, Transacted s u → u.req = none → Q (go ok u)) : Q (busRead k n s go) :=
  Machine.busRead_ind (fun _ => hwait) (fun _ _ h => hgo _ _ (((refl s).answered _ h).fillBuf _ _) rfl)
    fun _ h => hgo _ _ ((refl s).answered _ h).scrambleBuf rfl

end Transacted

/-- The stores that are command `i`'s own, one at most in a row of its table. -/
inductive OwnStore : Instr → (State → State) → Prop where
  | nothing (i : Instr) : OwnStore i id
  | beginInit (a7 : BitVec 7) : OwnStore (.init a7) (beginInit a7)
  | setReady (a7 : BitVec 7) : OwnStore (.init a7) setReady
  | foldRdy (a7 : BitVec 7) (ok : Bool) : OwnStore (.init a7) (foldRdy ok)
  | setAcc : OwnStore .intEnable setAcc
  | foldAcc (ok : Bool) : OwnStore .intEnable (foldAcc ok)
  | writeSlots (mask : BitVec 3) : OwnStore (.read mask) (writeSlots mask)

/-! ### One row -/

/-- What a row of command `i`'s table makes of `s`. It waits at the transaction the table has at STEP. Or it ends the
command, at step 0 only where the command has found RDY clear. Or it goes on to a later step, from step 0 only where
the command has found RDY set or is INIT. Nothing is outstanding after a row with a transaction. -/
inductive RowTo (P : Params) (i : Instr) (s : State) : State → Prop where
  | waits {r : Request} (hr : rowRequest P i s.stepNo.toNat s.devaddr = some r) : RowTo P i s (await s.stepNo r s)
  | ends {u : State} {f : State → State} {ok : Bool} {ev : BitVec 3} (hstart : s.stepNo = 0 → testsReady i = true)
      (hu : Transacted s u)
      (hreq : s.req = none ∨ (rowRequest P i s.stepNo.toNat s.devaddr).isSome = true → u.req = none)
      (hf : OwnStore i f) : RowTo P i s (complete ok ev (f u))
  | goes {u : State} {f : State → State} {k : BitVec 4}
      (hstart : s.stepNo = 0 → s.rdy = true ∨ ∃ a7, i = .init a7 ∧ f = beginInit a7) (hk : s.stepNo < k) (hk9 : k ≤ 9)
      (hu : Transacted s u)
      (hreq : s.req = none ∨ (rowRequest P i s.stepNo.toNat s.devaddr).isSome = true → u.req = none)
      (hf : OwnStore i f) : RowTo P i s (goto k (f u))

namespace RowTo

variable {P : Params} {i : Instr} {s : State} {k : BitVec 4}

/-- A row with a write. -/
theorem busWrite {bytes : List Byte} {go : Bool → State → State} (hk : s.stepNo = k)
    (hr : rowRequest P i k.toNat s.devaddr = some (.write s.devaddr bytes))
    (hgo : ∀ ok u, Transacted s u → u.req = none → RowTo P i s (go ok u)) : RowTo P i s (busWrite k bytes s go) := by
  subst hk
  exact Transacted.busWrite_ind (.waits hr) hgo

/-- A row with a read. -/
theorem busRead {n : Nat} {go : Bool → State → State} (hk : s.stepNo = k)
    (hr : rowRequest P i k.toNat s.devaddr = some (.read s.devaddr n))
    (hgo : ∀ ok u, Transacted s u → u.req = none → RowTo P i s (go ok u)) : RowTo P i s (busRead k n s go) := by
  subst hk
  exact Transacted.busRead_ind (.waits hr) hgo

/-- A row that ends the command after a transaction. -/
theorem completes {u : State} {ok : Bool} {ev : BitVec 3} (hk : s.stepNo = k) (h0 : k ≠ 0) (hu : Transacted s u)
    (hreq : u.req = none) : RowTo P i s (complete ok ev u) :=
  .ends (fun h => absurd (hk.symm.trans h) h0) hu (fun _ => hreq) (.nothing i)

/-- A row that goes on after a transaction, with a store of the command's own. -/
theorem continues {u : State} {f : State → State} {k' : BitVec 4} (hk : s.stepNo = k)
    (hk' : k ≠ 0 ∧ k < k' ∧ k' ≤ 9) (hu : Transacted s u) (hreq : u.req = none) (hf : OwnStore i f) :
    RowTo P i s (goto k' (f u)) := by
  subst hk
  obtain ⟨h0, hlt, h9⟩ := hk'
  exact .goes (fun h => absurd h h0) hlt h9 hu (fun _ => hreq) hf

/-- The row at step 0 of a command that tests RDY (10_state.md R36). -/
theorem ifReady {f : State → State} (hk : s.stepNo = 0) (ht : testsReady i = true) (hf : OwnStore i f)
    (hr : rowRequest P i 0 s.devaddr = none) : RowTo P i s (ifReady s fun s => goto 1 (f s)) := by
  have hreq : s.req = none ∨ (rowRequest P i s.stepNo.toNat s.devaddr).isSome = true → s.req = none := by
    simp [hk, hr]
  refine ifReady_ind (fun _ => ?_) fun hs => ?_
  · exact .ends (fun _ => ht) (.refl s) hreq (.nothing i)
  · exact .goes (fun _ => .inl hs) (by rw [hk]; decide) (by decide) (.refl s) hreq hf

/-- A row with a write whose failure ends the command. -/
theorem writeOrStop {bytes : List Byte} (hk : s.stepNo = k) (hk' : k ≠ 0 ∧ k < k + 1 ∧ k + 1 ≤ 9)
    (hr : rowRequest P i k.toNat s.devaddr = some (.write s.devaddr bytes)) :
    RowTo P i s (rowWriteOrStop k bytes s) := by
  refine .busWrite hk hr fun ok u hu hreq => ?_
  cases ok with
  | false => exact .completes hk hk'.1 hu hreq
  | true => exact .continues (f := id) hk hk' hu hreq (.nothing i)

/-- A row with a configuration write. -/
theorem config {fold : Bool → State → State} {w : Byte × Byte} (hk : s.stepNo = k)
    (hk' : k ≠ 0 ∧ k < k + 1 ∧ k + 1 ≤ 9)
    (hr : rowRequest P i k.toNat s.devaddr = some (.write s.devaddr [w.1, w.2]))
    (hfold : ∀ ok, OwnStore i (fold ok)) : RowTo P i s (rowConfig k fold w s) :=
  .busWrite hk hr fun ok _ hu hreq => .continues hk hk' hu hreq (hfold ok)

end RowTo

/-! ### The seven tables -/

theorem tickInit_rowTo {P : Params} {a7 : BitVec 7} {s t : State} (h : tickInit P a7 s = some t) :
    RowTo P (.init a7) s t := by
  unfold tickInit at h
  split at h <;> cases h
  case h_1 hk =>
    have hk : s.stepNo = 0 := BitVec.eq_of_toNat_eq hk
    exact .goes (fun _ => .inr ⟨a7, rfl, rfl⟩) (by rw [hk]; decide) (by decide) (.refl s) (by simp [hk, rowRequest])
      (.beginInit a7)
  case h_2 hk => exact .writeOrStop (BitVec.eq_of_toNat_eq hk) (by decide) rfl
  case h_3 hk =>
    have hk : s.stepNo = 2 := BitVec.eq_of_toNat_eq hk
    refine .busRead hk rfl fun ok u hu hreq => ?_
    split
    · exact .continues hk (by decide) hu hreq (.setReady a7)
    · exact .completes hk (by decide) hu hreq
  case h_4 hk | h_5 hk | h_6 hk | h_7 hk | h_8 hk | h_9 hk =>
    exact .config (BitVec.eq_of_toNat_eq hk) (by decide) rfl (.foldRdy a7)
  case h_10 hk =>
    have hk : s.stepNo = 9 := BitVec.eq_of_toNat_eq hk
    exact .ends (by simp [hk]) (.refl s) (by simp [hk, rowRequest, configSequence]) (.nothing _)

theorem tickRead_rowTo {P : Params} {mask : BitVec 3} {s t : State} (h : tickRead P mask s = some t) :
    RowTo P (.read mask) s t := by
  unfold tickRead at h
  split at h <;> cases h
  case h_1 hk => exact .ifReady (BitVec.eq_of_toNat_eq hk) rfl (.nothing _) rfl
  case h_2 hk => exact .writeOrStop (BitVec.eq_of_toNat_eq hk) (by decide) rfl
  case h_3 hk =>
    have hk : s.stepNo = 2 := BitVec.eq_of_toNat_eq hk
    exact .goes (f := id) (by simp [hk]) (by rw [hk]; decide) (by decide) ((Transacted.refl s).waitSettle P)
      (by simp [hk, rowRequest]) (.nothing _)
  case h_4 hk =>
    have hk : s.stepNo = 3 := BitVec.eq_of_toNat_eq hk
    refine .busWrite hk rfl fun ok u hu hreq => ?_
    cases ok with
    | false => exact .completes hk (by decide) hu.scrambleBuf hreq
    | true => exact .continues (f := id) hk (by decide) hu hreq (.nothing _)
  case h_5 hk =>
    have hk : s.stepNo = 4 := BitVec.eq_of_toNat_eq hk
    refine .busRead hk rfl fun ok u hu hreq => ?_
    cases ok with
    | false => exact .completes hk (by decide) hu hreq
    | true => exact .continues (f := id) hk (by decide) hu hreq (.nothing _)
  case h_6 hk =>
    have hk : s.stepNo = 5 := BitVec.eq_of_toNat_eq hk
    exact .ends (by simp [hk]) (.refl s) (by simp [hk, rowRequest]) (.writeSlots mask)

theorem tickIntEnable_rowTo {P : Params} {s t : State} (h : tickIntEnable P s = some t) :
    RowTo P .intEnable s t := by
  have hp := flushPos_toNat_le P.flushPos
  simp only [tickIntEnable] at h
  split at h
  next hk => cases h; exact .ifReady (BitVec.eq_of_toNat_eq hk) rfl .setAcc rfl
  next h0 =>
  have hpos : s.stepNo ≠ 0 := fun h => h0 (congrArg BitVec.toNat h)
  split at h
  next h9 =>
    cases h
    have hr : rowRequest P .intEnable 9 s.devaddr = none := by
      simp [rowRequest, configSequence, show 9 ≠ P.flushPos.toNat + 1 by omega,
        show 9 ≠ P.flushPos.toNat + 2 by omega, show ¬ 9 ≤ P.flushPos.toNat by omega]
    exact .ends (fun h => absurd h hpos) (.refl s) (by simp [h9, hr]) (.nothing _)
  split at h
  next hsel =>
    cases h
    refine .busWrite rfl (by simp [rowRequest, hsel]) fun ok u hu hreq =>
      .continues (f := id) rfl ⟨hpos, ?_⟩ hu hreq (.nothing _)
    split <;> bv_omega
  next hsel =>
  split at h
  next hread =>
    cases h
    refine .busRead rfl (by simp [rowRequest, hread]) fun ok u hu hreq =>
      .continues (f := id) rfl ⟨hpos, ?_⟩ hu hreq (.nothing _)
    bv_omega
  next hread =>
  split at h
  next w hw =>
    split at h <;> cases h
    next h8 =>
      refine .config rfl ⟨hpos, ?_⟩ (by simp [rowRequest, h0, hsel, hread, hw]) .foldAcc
      bv_omega
  next => cases h

/-- Every row of every table waits, ends its command, or goes on. -/
theorem tickCommand_rowTo {P : Params} {i : Instr} {s t : State} (h : tickCommand P i s = some t) :
    RowTo P i s t := by
  cases i with
  | init a7 => exact tickInit_rowTo h
  | read mask => exact tickRead_rowTo h
  | intEnable => exact tickIntEnable_rowTo h
  | setThresh | intDisable =>
    simp only [tickCommand, tickSetThresh, tickIntDisable] at h
    split at h <;> cases h
    case h_1 hk => exact .ifReady (BitVec.eq_of_toNat_eq hk) rfl (.nothing _) rfl
    case h_2 hk =>
      have hk : s.stepNo = 1 := BitVec.eq_of_toNat_eq hk
      exact .busWrite hk rfl fun _ _ => .completes hk (by decide)
  | intQuery | intHandle =>
    simp only [tickCommand, tickIntQuery, tickIntHandle] at h
    split at h <;> cases h
    case h_1 hk => exact .ifReady (BitVec.eq_of_toNat_eq hk) rfl (.nothing _) rfl
    case h_2 hk => exact .writeOrStop (BitVec.eq_of_toNat_eq hk) (by decide) rfl
    case h_3 hk =>
      have hk : s.stepNo = 2 := BitVec.eq_of_toNat_eq hk
      exact .busRead hk rfl fun _ _ => .completes hk (by decide)
  | wrThreshAct _ | wrActInactCtl _ | wrBwRate _ | wrPowerCtl _ | wrIntEnable _ => cases h
  | rdDevid | rdIntEnable | rdIntSource | rdData => cases h

/-! ### A run of a table -/

/-- What a run of command `i`'s table keeps: what holds at its start and is kept by every row of a busy machine. -/
theorem runSteps_ind {P : Params} {i : Instr} {Q : State → Prop}
    (hrow : ∀ u v, u.busy = true → Q u → tickCommand P i u = some v → Q v) :
    ∀ {n : Nat} {s t : State}, s.busy = true → currentCommand s = .instr i → Q s → runSteps P n s = .next t → Q t := by
  intro n
  induction n with
  | zero => intro s t _ _ hs h; cases h; exact hs
  | succ n ih =>
    intro s t hb hc hs h
    cases hu : tickCommand P i s with
    | none => simp [runSteps, tick, hc, hu] at h
    | some u =>
      have hQ : Q u := hrow s u hb hs hu
      rw [runSteps_row hc hu] at h
      split at h
      next hgo =>
        obtain ⟨-, hop, harg⟩ := tickCommand_sameCommand hu
        exact ih (Bool.and_eq_true_iff.1 hgo).1 ((currentCommand_congr hop harg).trans hc) hQ h
      next => cases h; exact hQ

/-- A command word stands for a command. -/
theorem isCommand_of_decodeCommand {w : CmdWord} {i : Instr} (h : decodeCommand w = .instr i) : isCommand i = true := by
  unfold decodeCommand at h
  repeat' split at h
  all_goals cases h
  all_goals rfl

/-- Only an accepted command goes on. -/
theorem currentCommand_of_resumeCommand {s t : State} (h : resumeCommand s = .next t) :
    ∃ i, currentCommand s = .instr i ∧ isCommand i = true := by
  cases hc : currentCommand s with
  | instr i => exact ⟨i, rfl, isCommand_of_decodeCommand hc⟩
  | rejected r => simp [resumeCommand, runSteps, tick, hc] at h

theorem exists_encode_command {i : Instr} (h : isCommand i = true) : ∃ w, encode i = .command w := by
  cases i with
  | init _ | read _ | setThresh _ | intQuery | intEnable | intDisable | intHandle => exact ⟨_, rfl⟩
  | wrThreshAct _ | wrActInactCtl _ | wrBwRate _ | wrPowerCtl _ | wrIntEnable _ => cases h
  | rdDevid | rdIntEnable | rdIntSource | rdData => cases h

/-! ### A register-level operation on its own -/

/-- What is outstanding is a register-level operation's transaction. -/
def State.StandsAlone (s : State) : Prop := ∀ r, s.req = some r → standsAlone s.devaddr r = true

/-- A register-level operation waits at a transaction of its own, or hands its status back. -/
inductive RegisterOpTo (s : State) : State → Prop where
  | waits {u : State} {r : Request} (hu : Transacted s u) (hr : s.StandsAlone → standsAlone s.devaddr r = true) :
      RegisterOpTo s (await s.stepNo r u)
  | ends {u : State} {ok : Bool} (hu : Transacted s u) (hreq : u.req = none) : RegisterOpTo s (deliverStatus ok u)

theorem writeOp_to {r v : Byte} {s : State}
    (h : s.StandsAlone → Encoding.wf (.registerOp [r, v]) = true) : RegisterOpTo s (writeOp r v s) :=
  Transacted.busWrite_ind (.waits (.refl s) fun hs => by simp [standsAlone, h hs]) fun _ _ hu hreq => .ends hu hreq

theorem readPhase_to {n : Nat} {s : State} (h : s.StandsAlone → n = 1 ∨ n = 6) :
    RegisterOpTo s (busRead s.stepNo n s deliverStatus) :=
  Transacted.busRead_ind (.waits (.refl s) fun hs => by simpa [standsAlone] using h hs)
    fun _ _ hu hreq => .ends hu hreq

theorem readOp_to {r : Byte} {n : Nat} {s : State} (h : s.StandsAlone → Encoding.wf (.registerOp [r]) = true)
    (hn : n = 1 ∨ n = 6) : RegisterOpTo s (readOp r n s) := by
  refine regRead_ind (fun _ => .waits (.refl s) fun hs => by simp [standsAlone, h hs]) (fun _ hr => ?_) fun _ _ hr => ?_
  · exact .ends ((Transacted.refl s).answered _ hr) rfl
  have hsel : Transacted s (answered (.write s.devaddr [r] true) _ s) := (Transacted.refl s).answered _ hr
  refine busRead_ind (fun _ => ?_) (fun _ _ hr => ?_) fun _ hr => ?_
  · exact .waits hsel fun _ => by simpa [standsAlone] using hn
  · exact .ends ((hsel.answered _ hr).fillBuf _ _) rfl
  · exact .ends (hsel.answered _ hr).scrambleBuf rfl

theorem readLength_eq (r : Byte) : readLength r = 1 ∨ readLength r = 6 := by
  unfold readLength; split <;> simp

theorem resumeRegisterOp_to {r : Request} {s t : State} (hr : s.req = some r) (h : resumeRegisterOp r s = .next t) :
    RegisterOpTo s t := by
  unfold resumeRegisterOp at h
  split at h <;> cases h
  next a r v => exact writeOp_to fun hs => (Bool.and_eq_true_iff.1 (hs _ hr)).2
  next a r => exact readOp_to (fun hs => (Bool.and_eq_true_iff.1 (hs _ hr)).2) (readLength_eq r)
  next a n => exact readPhase_to fun hs => by simpa using (Bool.and_eq_true_iff.1 (hs _ hr)).2

theorem exec_registerOp_to {i : Instr} {s t : State} (hi : isCommand i = false) (h : exec i s = .next t) :
    RegisterOpTo s t := by
  cases i with
  | init _ | read _ | setThresh _ | intQuery | intEnable | intDisable | intHandle => cases hi
  | wrThreshAct _ | wrActInactCtl _ | wrBwRate _ | wrPowerCtl _ | wrIntEnable _ =>
    cases h; exact writeOp_to fun _ => rfl
  | rdDevid | rdIntEnable | rdIntSource | rdData => cases h; exact readOp_to (fun _ => rfl) (by decide)

/-! ### One step of the machine -/

/-- Where the run of command `i`'s table in the step of `s` starts: at the row the command waits at, or at step 0 of the
command as it is accepted. -/
inductive RunsFrom (i : Instr) (s : State) : State → Prop where
  | resumed (hb : s.busy = true) (hc : currentCommand s = .instr i) : RunsFrom i s s
  | accepted {w : CmdWord} {rest : List HostEvent} (hi : s.Idle) (hw : encode i = .command w) :
      RunsFrom i s (accept w (takeInput rest s))

/-- What a step can do: take a reset; run a command's table; run a register-level operation, on a ready machine where it
is not one that waited; hand one back unrun; take a reserved word; or leave all of SEQ as it is. -/
inductive StepTo (s : State) : State → Prop where
  | reset {u : Config.Unspecified} {inbox : List HostEvent} {draws : Nat} (hr : resetPresented s = true) (hi : s.Idle) :
      StepTo s (State.ofReset u s.bus inbox s.trace s.delivered draws)
  | command {i : Instr} {u t : State} (hi : isCommand i = true) (hrun : running s = some i) (hu : RunsFrom i s u)
      (ht : runSteps params 10 u = .next t) : StepTo s t
  | registerOp {inbox : List HostEvent} {t : State} (hb : s.busy = false) (hr : s.rdy = true ∨ s.req.isSome = true)
      (ht : RegisterOpTo (takeInput inbox s) t) : StepTo s t
  | notAdmitted {rest : List HostEvent} (hi : s.Idle) : StepTo s (deliverStatus false (takeInput rest s))
  | reservedWord {w : CmdWord} {rest : List HostEvent} (hi : s.Idle) :
      StepTo s (complete false 0 (accept w (takeInput rest s)))
  | outside {inbox : List HostEvent} {bus : Transport} (hi : s.Idle) (hbus : s.bus.wf = true → bus.wf = true) :
      StepTo s { s with inbox := inbox, bus := bus }

/-- A register-level operation is admitted on a ready machine only (10_state.md R36). -/
theorem ready_of_admitted {e : Encoding} {s : State} {i : Instr} (ha : admitted e s = true)
    (hd : decode e = .instr i) (hi : isCommand i = false) : s.rdy = true := by
  cases e with
  | command w => rw [isCommand_of_decodeCommand hd] at hi; cases hi
  | registerOp bytes => exact ha

theorem running_of_busy {s : State} {i : Instr} (hr : resetPresented s = false) (hb : s.busy = true)
    (hc : currentCommand s = .instr i) : running s = some i := by
  simp [running, hr, hb, hc]

theorem running_of_issue {s : State} {e : Encoding} {rest : List HostEvent} {i : Instr} (hi : s.Idle)
    (h : s.inbox = .issue e :: rest) (hd : decode e = .instr i) (ha : admitted e s = true) : running s = some i := by
  simp [running, resetPresented, h, hi.1, hi.2, hd, ha]

theorem step_outcome {s t : State} (h : step s = .next t) : StepTo s t := by
  obtain ⟨hr, hs⟩ | ⟨hr, hb, hs⟩ | ⟨-, hb, r, hq, hs⟩ | ⟨hi, -, hs⟩ | ⟨hi, e, rest, i, hx, hd, ha, hs⟩
    | ⟨hi, e, rest, i, -, -, -, hs⟩ | ⟨hi, e, rest, r, -, -, hs⟩ | ⟨hi, r, v, rest, -, hs⟩ := step_cases s
  all_goals rw [hs] at h
  · obtain ⟨hrefused, -⟩ | ⟨hnext, hi⟩ := takeReset_cases (takeInput s.inbox.tail s)
    · rw [hrefused] at h; cases h
    · rw [hnext] at h; cases h; exact .reset hr hi
  · obtain ⟨i, hc, hi⟩ := currentCommand_of_resumeCommand h
    exact .command hi (running_of_busy hr hb hc) (.resumed hb hc) h
  · exact .registerOp (inbox := s.inbox) hb (.inr (by rw [hq]; rfl)) (resumeRegisterOp_to hq h)
  · cases h; exact .outside hi id
  · cases hcmd : isCommand i with
    | true =>
      obtain ⟨w, hw⟩ := exists_encode_command hcmd
      rw [bigStepIsTheStepTable i w _ hcmd hw] at h
      exact .command hcmd (running_of_issue hi hx hd ha) (.accepted hi hw) h
    | false => exact .registerOp hi.1 (.inl (ready_of_admitted ha hd hcmd)) (exec_registerOp_to hcmd h)
  · cases h; exact .notAdmitted hi
  · cases e with
    | command w => cases h; exact .reservedWord hi
    | registerOp bytes => cases h
  · cases h; exact .outside hi (Transport.activity_wf r v)

end Sys2Proof.Machine
end

section
/-! PROOF. Every step keeps the invariant. Between two rows a command holds a stronger one, `AtRow`; a row makes of it
the invariant of a waiting or an idle machine, or `AtRow` at a later step, and no table has a step after 9
(10_state.md R26), so that ten rows are enough. -/

namespace Sys2Proof.Machine

/-- A bus form has bit 0 clear (30_encoding.md R83). -/
theorem busForm_even (a7 : BitVec 7) : (busForm a7).getLsbD 0 = false := by
  simp [busForm]

/-- The invariant of an idle machine with nothing outstanding. -/
theorem inv_of_idle {t : State} (hi : t.Idle) (hstep : t.stepNo = 0) (hwf : t.bus.wf = true)
    (heven : t.rdy = true → t.devaddr.getLsbD 0 = false) : t.Inv where
  bus_wf := hwf
  devaddr_even h := heven (h.resolve_right (by simp [hi.1]))
  idle_step _ := hstep
  idle_req _ _ h := by simp [hi.2] at h
  idle_req_ready _ h := by simp [hi.2] at h
  busy_row h := by simp [hi.1] at h
  busy_ready h := by simp [hi.1] at h

/-- Command `i` in progress at a row of its table. What it has at step 0 is what it has found there; after step 0
DEVADDR is a bus form and RDY is set, or the command is INIT. -/
structure AtRow (i : Instr) (s : State) : Prop where
  busy : s.busy = true
  command : currentCommand s = .instr i
  bus_wf : s.bus.wf = true
  even : s.stepNo ≠ 0 ∨ s.rdy = true → s.devaddr.getLsbD 0 = false
  ready : s.stepNo ≠ 0 → testsReady i = true → s.rdy = true
  req : s.req = none ∨ (rowRequest params i s.stepNo.toNat s.devaddr).isSome = true

theorem rowRequest_zero (P : Params) (i : Instr) (dev : Byte) : rowRequest P i 0 dev = none := by
  cases i <;> rfl

namespace OwnStore

variable {i : Instr} {f : State → State} {u : State}

theorem busy (hf : OwnStore i f) : (f u).busy = u.busy := by cases hf <;> rfl

theorem bus (hf : OwnStore i f) : (f u).bus = u.bus := by cases hf <;> rfl

theorem req (hf : OwnStore i f) : (f u).req = u.req := by cases hf <;> rfl

theorem currentCommand (hf : OwnStore i f) : currentCommand (f u) = currentCommand u := by cases hf <;> rfl

/-- Only INIT writes RDY and DEVADDR. -/
theorem ready_of_testsReady (hf : OwnStore i f) (hi : testsReady i = true) :
    (f u).rdy = u.rdy ∧ (f u).devaddr = u.devaddr := by
  cases hf with
  | beginInit | setReady | foldRdy => cases hi
  | nothing | setAcc | foldAcc | writeSlots => exact ⟨rfl, rfl⟩

theorem even (hf : OwnStore i f) (hu : u.devaddr.getLsbD 0 = false) : (f u).devaddr.getLsbD 0 = false := by
  cases hf with
  | beginInit a7 => exact busForm_even a7
  | nothing | setReady | foldRdy | setAcc | foldAcc | writeSlots => exact hu

end OwnStore

namespace AtRow

variable {i : Instr} {s : State}

theorem of_inv (hs : s.Inv) (hb : s.busy = true) (hc : currentCommand s = .instr i) : AtRow i s := by
  obtain ⟨j, r, hj, hr, hrow⟩ := hs.busy_row hb
  obtain rfl : i = j := Decoded.instr.inj (hc.symm.trans hj)
  exact ⟨hb, hc, hs.bus_wf, fun _ => hs.devaddr_even (.inr hb), fun _ => hs.busy_ready hb i hc,
    .inr (by rw [hrow]; rfl)⟩

theorem of_accept {w : CmdWord} (hw : encode i = .command w) (hwf : s.bus.wf = true)
    (heven : s.rdy = true → s.devaddr.getLsbD 0 = false) : AtRow i (accept w s) :=
  ⟨rfl, (inProgress_accept hw s).command, hwf, fun h => heven (h.resolve_left fun h0 => h0 rfl),
    fun h0 => absurd rfl h0, .inl rfl⟩

/-- A row that waits leaves the machine in the invariant. -/
theorem await_inv (hs : AtRow i s) {r : Request} (hr : rowRequest params i s.stepNo.toNat s.devaddr = some r) :
    (await s.stepNo r s).Inv := by
  have h0 : s.stepNo ≠ 0 := fun h => by rw [h] at hr; cases (rowRequest_zero ..).symm.trans hr
  exact {
    bus_wf := hs.bus_wf
    devaddr_even := fun _ => hs.even (.inl h0)
    idle_step := fun h => by cases hs.busy.symm.trans h
    idle_req := fun h => by cases hs.busy.symm.trans h
    idle_req_ready := fun h => by cases hs.busy.symm.trans h
    busy_row := fun _ => ⟨i, r, hs.command, rfl, hr⟩
    busy_ready := fun _ j hj hready => by cases hs.command.symm.trans hj; exact hs.ready h0 hready }

section Row

variable {u : State} {f : State → State} (hu : Transacted s u) (hreq : u.req = none) (hf : OwnStore i f)

include hu hreq hf

/-- A row that ends the command leaves the machine in the invariant. -/
theorem complete_inv (hs : AtRow i s) (hstart : s.stepNo = 0 → testsReady i = true) (ok : Bool) (ev : BitVec 3) :
    (complete ok ev (f u)).Inv := by
  refine inv_of_idle ⟨rfl, hf.req.trans hreq⟩ rfl ?_ fun hrdy => ?_
  · rw [complete_bus, hf.bus]
    exact hu.bus_wf hs.bus_wf
  rw [complete_rdy] at hrdy
  rw [complete_devaddr]
  by_cases h0 : s.stepNo = 0
  · obtain ⟨hr, hd⟩ := hf.ready_of_testsReady (u := u) (hstart h0)
    rw [hd, hu.devaddr]
    rw [hr, hu.rdy] at hrdy
    exact hs.even (.inr hrdy)
  · exact hf.even (hu.devaddr ▸ hs.even (.inl h0))

/-- A row that goes on leaves the command at a row. -/
theorem goto_atRow (hs : AtRow i s) (k : BitVec 4)
    (hstart : s.stepNo = 0 → s.rdy = true ∨ ∃ a7, i = .init a7 ∧ f = beginInit a7) : AtRow i (goto k (f u)) where
  busy := hf.busy.trans (hu.busy.trans hs.busy)
  command := hf.currentCommand.trans (hu.currentCommand.trans hs.command)
  bus_wf := by rw [goto_bus, hf.bus]; exact hu.bus_wf hs.bus_wf
  even _ := by
    have hsu : s.stepNo ≠ 0 ∨ s.rdy = true → (f u).devaddr.getLsbD 0 = false := fun h =>
      hf.even (hu.devaddr ▸ hs.even h)
    by_cases h0 : s.stepNo = 0
    · obtain hr | ⟨a7, -, rfl⟩ := hstart h0
      · exact hsu (.inr hr)
      · exact busForm_even a7
    · exact hsu (.inl h0)
  ready _ ht := by
    rw [goto_rdy, (hf.ready_of_testsReady ht).1, hu.rdy]
    by_cases h0 : s.stepNo = 0
    · obtain hr | ⟨a7, rfl, -⟩ := hstart h0
      · exact hr
      · cases ht
    · exact hs.ready h0 ht
  req := .inl (hf.req.trans hreq)

end Row

/-- A row waits or ends the command, in the invariant, or leaves it at a later row. -/
theorem row (hs : AtRow i s) {t : State} (h : RowTo params i s t) :
    ((t.busy && t.req.isNone) = false ∧ t.Inv)
      ∨ ((t.busy && t.req.isNone) = true ∧ AtRow i t ∧ s.stepNo < t.stepNo ∧ t.stepNo ≤ 9) := by
  cases h with
  | waits hr => exact .inl ⟨by simp, hs.await_inv hr⟩
  | ends hstart hu hreq hf => exact .inl ⟨rfl, hs.complete_inv hu (hreq hs.req) hf hstart _ _⟩
  | @goes u f k hstart hk hk9 hu hreq hf =>
    have ht := hs.goto_atRow hu (hreq hs.req) hf k hstart
    exact .inr ⟨by rw [ht.busy, goto_req, hf.req, hreq hs.req]; rfl, ht, hk, hk9⟩

/-- A run that has rows enough to pass step 9 ends in the invariant. -/
theorem runSteps_inv {n : Nat} {s t : State} (hs : AtRow i s) (hn : 10 ≤ n + 1 + s.stepNo.toNat)
    (h : runSteps params (n + 1) s = .next t) : t.Inv := by
  cases hu : tickCommand params i s with
  | none => simp [runSteps, tick, hs.command, hu] at h
  | some u =>
    rw [runSteps_row hs.command hu] at h
    obtain ⟨hgo, hinv⟩ | ⟨hgo, hrow, hlt, h9⟩ := hs.row (tickCommand_rowTo hu)
    · rw [hgo] at h; cases h; exact hinv
    · rw [hgo] at h
      match n, hn with
      | 0, hn => bv_omega
      | n + 1, hn => exact runSteps_inv hrow (by bv_omega) h

end AtRow

/-- The run of a table keeps the invariant, from its start and from the row it waits at. -/
theorem RunsFrom.inv {i : Instr} {s u t : State} (hu : RunsFrom i s u) (hs : s.Inv)
    (h : runSteps params 10 u = .next t) : t.Inv := by
  cases hu with
  | resumed hb hc => exact (AtRow.of_inv hs hb hc).runSteps_inv (Nat.le_add_right 10 _) h
  | @accepted w rest _ hw =>
    have haccept : AtRow i (accept w (takeInput rest s)) :=
      .of_accept hw hs.bus_wf fun h => hs.devaddr_even (.inl h)
    exact haccept.runSteps_inv le_rfl h

/-- A register-level operation of a ready idle machine keeps the invariant. -/
theorem RegisterOpTo.inv {s t : State} (h : RegisterOpTo s t) (hs : s.Inv) (hb : s.busy = false) (hr : s.rdy = true) :
    t.Inv := by
  have heven := hs.devaddr_even (.inl hr)
  have hstep := hs.idle_step hb
  cases h with
  | @waits u r hu halone =>
    have hbu : u.busy = false := hu.busy.trans hb
    exact {
      bus_wf := hu.bus_wf hs.bus_wf
      devaddr_even := fun _ => hu.devaddr ▸ heven
      idle_step := fun _ => hstep
      idle_req := fun _ r' h => by cases h; exact hu.devaddr ▸ halone (hs.idle_req hb)
      idle_req_ready := fun _ _ => hu.rdy.trans hr
      busy_row := fun h => by cases hbu.symm.trans h
      busy_ready := fun h => by cases hbu.symm.trans h }
  | @ends u ok hu hreq =>
    exact inv_of_idle ⟨hu.busy.trans hb, hreq⟩ (hu.stepNo.trans hstep) (hu.bus_wf hs.bus_wf) fun _ => hu.devaddr ▸ heven

/-- Taking an input leaves the invariant. -/
theorem State.Inv.takeInput {s : State} (hs : s.Inv) (rest : List HostEvent) : (takeInput rest s).Inv :=
  ⟨hs.bus_wf, hs.devaddr_even, hs.idle_step, hs.idle_req, hs.idle_req_ready, hs.busy_row, hs.busy_ready⟩

/-- Settles O15: by what a step can do. -/
theorem stepKeepsInv : Obligations.StepKeepsInv := by
  intro s t hs h
  have heven : s.rdy = true → s.devaddr.getLsbD 0 = false := fun h => hs.devaddr_even (.inl h)
  cases step_outcome h with
  | reset => exact inv_of_idle ⟨rfl, rfl⟩ rfl hs.bus_wf fun h => by cases h
  | command _ _ hu ht => exact hu.inv hs ht
  | registerOp hb hr ht => exact ht.inv (hs.takeInput _) hb (hr.elim id (hs.idle_req_ready hb))
  | notAdmitted hi => exact inv_of_idle hi (hs.idle_step hi.1) hs.bus_wf heven
  | reservedWord => exact inv_of_idle ⟨rfl, rfl⟩ rfl hs.bus_wf heven
  | outside hi hbus => exact inv_of_idle hi (hs.idle_step hi.1) (hbus hs.bus_wf) heven

end Sys2Proof.Machine
end

section
/-! PROOF. Which registers a step may change (10_state.md R20 to R29, R34, R35). Each fact holds of a row of a table, so
of a run of it, and by `step_outcome` of a step. -/

namespace Sys2Proof.Machine

/-! ### Slots, RDY, DEVADDR and ACC -/

/-- `t` has the registers of `s` but for those that `o`, the instruction that runs, owns: READ the slots its mask
selects, INIT RDY and DEVADDR, INT_ENABLE ACC. -/
structure KeepsOthers (o : Option Instr) (s t : State) : Prop where
  outX : (∀ mask, o = some (.read mask) → mask.getLsbD 0 = false) → t.outX = s.outX
  outY : (∀ mask, o = some (.read mask) → mask.getLsbD 1 = false) → t.outY = s.outY
  outZ : (∀ mask, o = some (.read mask) → mask.getLsbD 2 = false) → t.outZ = s.outZ
  rdy : (∀ a7, o ≠ some (.init a7)) → t.rdy = s.rdy
  devaddr : (∀ a7, o ≠ some (.init a7)) → t.devaddr = s.devaddr
  acc : o ≠ some .intEnable → t.acc = s.acc

namespace KeepsOthers

variable {o : Option Instr} {s t u : State}

theorem refl (o : Option Instr) (s : State) : KeepsOthers o s s :=
  ⟨fun _ => rfl, fun _ => rfl, fun _ => rfl, fun _ => rfl, fun _ => rfl, fun _ => rfl⟩

theorem trans (h : KeepsOthers o s t) (h' : KeepsOthers o t u) : KeepsOthers o s u where
  outX ho := (h'.outX ho).trans (h.outX ho)
  outY ho := (h'.outY ho).trans (h.outY ho)
  outZ ho := (h'.outZ ho).trans (h.outZ ho)
  rdy ho := (h'.rdy ho).trans (h.rdy ho)
  devaddr ho := (h'.devaddr ho).trans (h.devaddr ho)
  acc ho := (h'.acc ho).trans (h.acc ho)

end KeepsOthers

theorem Transacted.keepsOthers {s u : State} (h : Transacted s u) (o : Option Instr) : KeepsOthers o s u := by
  obtain ⟨_, _, _, _, _, _, rfl⟩ := h
  exact { KeepsOthers.refl o s with }

theorem OwnStore.keepsOthers {i : Instr} {f : State → State} (hf : OwnStore i f) (u : State) :
    KeepsOthers (some i) u (f u) := by
  cases hf with
  | nothing => exact .refl _ _
  | beginInit a7 | setReady a7 | foldRdy a7 =>
    exact { KeepsOthers.refl _ u with rdy := fun h => absurd rfl (h a7), devaddr := fun h => absurd rfl (h a7) }
  | setAcc | foldAcc => exact { KeepsOthers.refl _ u with acc := fun h => absurd rfl h }
  | writeSlots mask =>
    exact { KeepsOthers.refl _ u with
      outX := fun h => by rw [writeSlots_outX, h mask rfl]; rfl
      outY := fun h => by rw [writeSlots_outY, h mask rfl]; rfl
      outZ := fun h => by rw [writeSlots_outZ, h mask rfl]; rfl }

theorem RowTo.keepsOthers {P : Params} {i : Instr} {s t : State} (h : RowTo P i s t) : KeepsOthers (some i) s t := by
  cases h with
  | waits => exact { KeepsOthers.refl _ s with }
  | @ends u f _ _ _ hu _ hf | @goes u f _ _ _ _ hu _ hf =>
    exact { (hu.keepsOthers _).trans (hf.keepsOthers u) with }

theorem runSteps_keepsOthers {P : Params} {i : Instr} {n : Nat} {s t : State} (hb : s.busy = true)
    (hc : currentCommand s = .instr i) (h : runSteps P n s = .next t) : KeepsOthers (some i) s t :=
  runSteps_ind (fun _ _ _ hu hv => hu.trans (tickCommand_rowTo hv).keepsOthers) hb hc (.refl _ s) h

theorem RegisterOpTo.keepsOthers {s t : State} (h : RegisterOpTo s t) (o : Option Instr) : KeepsOthers o s t := by
  cases h with
  | waits hu | ends hu => exact { hu.keepsOthers o with }

theorem RunsFrom.busy {i : Instr} {s u : State} (h : RunsFrom i s u) : u.busy = true := by
  cases h with
  | resumed hb => exact hb
  | accepted => rfl

theorem RunsFrom.command {i : Instr} {s u : State} (h : RunsFrom i s u) : currentCommand u = .instr i := by
  cases h with
  | resumed _ hc => exact hc
  | accepted _ hw => exact (inProgress_accept hw _).command

theorem step_keepsOthers {s t : State} (hr : resetPresented s = false) (h : step s = .next t) :
    KeepsOthers (running s) s t := by
  cases step_outcome h with
  | reset hr' => cases hr.symm.trans hr'
  | command hi hrun hu ht =>
    have hrest := runSteps_keepsOthers hu.busy hu.command ht
    rw [hrun]
    cases hu with
    | resumed => exact hrest
    | accepted => exact { hrest with }
  | registerOp _ _ ht => exact { ht.keepsOthers _ with }
  | notAdmitted | reservedWord | outside => exact { KeepsOthers.refl _ s with }

/-- Settles O17: READ alone owns the slots. -/
theorem slotsChangeOnlyByRead : Obligations.SlotsChangeOnlyByRead := by
  intro s t hr h hread
  have hkeep := step_keepsOthers hr h
  exact ⟨hkeep.outX fun mask hm => absurd hm (hread mask), hkeep.outY fun mask hm => absurd hm (hread mask),
    hkeep.outZ fun mask hm => absurd hm (hread mask)⟩

/-- Settles O18: INIT alone owns RDY and DEVADDR. -/
theorem rdyAndDevaddrChangeOnlyByInit : Obligations.RdyAndDevaddrChangeOnlyByInit := by
  intro s t hr h hinit
  have hkeep := step_keepsOthers hr h
  exact ⟨hkeep.rdy hinit, hkeep.devaddr hinit⟩

/-- Settles O19: INT_ENABLE alone owns ACC. -/
theorem accChangesOnlyByIntEnable : Obligations.AccChangesOnlyByIntEnable :=
  fun _ _ hr h henable => (step_keepsOthers hr h).acc henable

/-! ### The response -/

/-- The response registers are as they were and nothing is handed back. -/
def ResponseKept (s t : State) : Prop := t.respOk = s.respOk ∧ t.respEv = s.respEv ∧ t.delivered = s.delivered

/-- The response in the registers has been handed back and the machine is idle at STEP 0. -/
def ResponseGiven (s t : State) : Prop :=
  t.delivered = s.delivered ++ [.response t.respOk t.respEv] ∧ t.busy = false ∧ t.stepNo = 0

theorem Transacted.responseKept {s u : State} (h : Transacted s u) : ResponseKept s u := by
  obtain ⟨_, _, _, _, _, _, rfl⟩ := h
  exact ⟨rfl, rfl, rfl⟩

theorem OwnStore.responseKept {i : Instr} {f : State → State} (hf : OwnStore i f) (u : State) :
    ResponseKept u (f u) := by
  cases hf <;> exact ⟨rfl, rfl, rfl⟩

theorem ResponseKept.trans {s t u : State} (h : ResponseKept s t) (h' : ResponseKept t u) : ResponseKept s u := by
  obtain ⟨hok, hev, hd⟩ := h
  obtain ⟨hok', hev', hd'⟩ := h'
  exact ⟨hok'.trans hok, hev'.trans hev, hd'.trans hd⟩

/-- A run of a table gives a response at its end or none. -/
theorem runSteps_response {P : Params} {i : Instr} {n : Nat} {s t : State} (hb : s.busy = true)
    (hc : currentCommand s = .instr i) (h : runSteps P n s = .next t) : ResponseKept s t ∨ ResponseGiven s t := by
  refine runSteps_ind (Q := fun u => ResponseKept s u ∨ ResponseGiven s u) (fun u v hbu hu hv => ?_) hb hc
    (.inl ⟨rfl, rfl, rfl⟩) h
  obtain hsu | ⟨-, hidle, -⟩ := hu
  · cases tickCommand_rowTo hv with
    | waits => exact .inl hsu
    | @goes w f _ _ _ _ hw _ hf => exact .inl (hsu.trans (hw.responseKept.trans (hf.responseKept w)))
    | @ends w f ok ev _ hw _ hf =>
      obtain ⟨-, -, hd⟩ := hsu.trans (hw.responseKept.trans (hf.responseKept w))
      exact .inr ⟨congrArg (· ++ [Delivery.response ok ev]) hd, rfl, rfl⟩
  · cases hbu.symm.trans hidle

/-- Settles O20: a row writes the response registers only where it ends its command. -/
theorem responseHeldUntilComplete : Obligations.ResponseHeldUntilComplete := by
  intro s t hr h
  cases step_outcome h with
  | reset hr' => cases hr.symm.trans hr'
  | @command i u _ _ _ hu ht =>
    have hsu : ResponseKept s u := by cases hu <;> exact ⟨rfl, rfl, rfl⟩
    obtain hut | ⟨hd, hidle, hstep⟩ := runSteps_response hu.busy hu.command ht
    · obtain ⟨hok, hev, hd⟩ := hsu.trans hut
      exact .inl ⟨hok, hev, .inl hd⟩
    · exact .inr ⟨hsu.2.2 ▸ hd, hidle, hstep⟩
  | registerOp _ _ ht =>
    cases ht with
    | waits hu =>
      obtain ⟨hok, hev, hd⟩ := hu.responseKept
      exact .inl ⟨hok, hev, .inl hd⟩
    | @ends u ok hu =>
      obtain ⟨hok, hev, hd⟩ := hu.responseKept
      exact .inl ⟨hok, hev, .inr ⟨ok, congrArg (· ++ [Delivery.status ok]) hd⟩⟩
  | notAdmitted => exact .inl ⟨rfl, rfl, .inr ⟨false, rfl⟩⟩
  | reservedWord => exact .inr ⟨rfl, rfl, rfl⟩
  | outside => exact .inl ⟨rfl, rfl, .inl rfl⟩

/-! ### The inputs, OP and ARG -/

/-- Between two rows and at its end a run has the inputs and the accepted command it started with. -/
theorem runSteps_sameCommand {P : Params} {i : Instr} {n : Nat} {s t : State} (hb : s.busy = true)
    (hc : currentCommand s = .instr i) (h : runSteps P n s = .next t) : SameCommand s t := by
  refine runSteps_ind (Q := SameCommand s) (fun u v _ hu hv => ?_) hb hc ⟨rfl, rfl, rfl⟩ h
  obtain ⟨hinbox, hop, harg⟩ := hu
  obtain ⟨hinbox', hop', harg'⟩ := tickCommand_sameCommand hv
  exact ⟨hinbox'.trans hinbox, hop'.trans hop, harg'.trans harg⟩

/-- Settles O59: a busy machine runs its command's table, no row of which takes an input or writes OP or ARG. -/
theorem busyMachineAcceptsNothing : Obligations.BusyMachineAcceptsNothing := by
  intro s t hb hr h
  rw [step_of_busy hr hb] at h
  obtain ⟨i, hc, -⟩ := currentCommand_of_resumeCommand h
  exact runSteps_sameCommand hb hc h

/-! ### Commands that find RDY clear, and what a step runs -/

/-- A command other than INIT that finds RDY clear ends at once (10_state.md R36). -/
theorem exec_of_not_ready {i : Instr} {w : CmdWord} {s : State} (hi : testsReady i = true) (hw : encode i = .command w)
    (hr : s.rdy = false) : exec i s = .next (complete false 0 (accept w s)) := by
  cases i with
  | read _ | setThresh _ | intQuery | intEnable | intDisable | intHandle =>
    cases hw; exact congrArg Host.Outcome.next (ifReady_of_not_ready hr)
  | init _ => cases hi
  | wrThreshAct _ | wrActInactCtl _ | wrBwRate _ | wrPowerCtl _ | wrIntEnable _ => cases hi
  | rdDevid | rdIntEnable | rdIntSource | rdData => cases hi

/-- Settles O21: the test at step 0 ends the command. -/
theorem notReadyCommandsDoNothing : Obligations.NotReadyCommandsDoNothing :=
  fun _ _ _ hi hw hr => exec_of_not_ready hi hw hr

/-- Settles O7: a command word is admitted always, a register-level operation where RDY is set. -/
theorem stepRunsDecodedInstruction : Obligations.StepRunsDecodedInstruction :=
  ⟨fun _ _ _ _ hi hx hd _ => step_of_issue hi hx hd rfl,
    fun _ _ _ _ hi hx hd _ => ⟨fun hr => step_of_issue hi hx hd hr, fun hr => step_of_not_admitted hi hx hd hr⟩⟩

end Sys2Proof.Machine
end

section
/-! PROOF. The frames of the commands (10_state.md R35). The registers follow from what a run of a table keeps
(`KeepsOthers`). BUF and the chip's registers are followed along the big step, where a read stands after its select:
which chip registers a read clears depends on where the select has put the chip's pointer (20_memory.md R58, R60). -/

namespace Sys2Proof.Machine

/-- The registers a command does not own, and the inputs. -/
theorem exec_keepsOthers {i : Instr} {s t : State} (hi : isCommand i = true) (h : exec i s = .next t) :
    KeepsOthers (some i) s t ∧ t.inbox = s.inbox := by
  obtain ⟨w, hw⟩ := exists_encode_command hi
  rw [bigStepIsTheStepTable i w s hi hw] at h
  have haccept := inProgress_accept hw s
  exact ⟨{ runSteps_keepsOthers haccept.busy haccept.command h with },
    (runSteps_sameCommand haccept.busy haccept.command h).1⟩

theorem Bytes6.fill_fill (n : Nat) (d d' old : Bytes6) :
    Bytes6.fill n d (Bytes6.fill n d' old) = Bytes6.fill n d old := by
  simp only [Bytes6.fill]
  congr 1 <;> split <;> rfl

/-- From `s` to `t` transactions have been made with reads of `n` bytes: DEVADDR is as it was, of the chip's registers
only those in `stored` have changed, and of BUF only the first `n` bytes where no free value was drawn. -/
structure BusFrame (stored : List Byte) (n : Nat) (s t : State) : Prop where
  bus_wf : t.bus.wf = true
  devaddr : t.devaddr = s.devaddr
  reg : ∀ x, x ∉ stored → t.bus.reg x = s.bus.reg x
  draws : s.draws ≤ t.draws
  buf : t.draws = s.draws → ∃ d, t.buf = Bytes6.fill n d s.buf

namespace BusFrame

variable {stored : List Byte} {n : Nat} {s u : State}

theorem refl (stored : List Byte) (n : Nat) (h : s.bus.wf = true) : BusFrame stored n s s where
  bus_wf := h
  devaddr := rfl
  reg _ _ := rfl
  draws := le_rfl
  buf _ := ⟨s.buf, by simp [Bytes6.fill]⟩

theorem answered (h : BusFrame stored n s u) {e : Event} {t : Transport} (hwf : t.wf = true)
    (hreg : ∀ x, x ∉ stored → t.reg x = u.bus.reg x) : BusFrame stored n s (answered e t u) :=
  { h with bus_wf := hwf, reg := fun x hx => (hreg x hx).trans (h.reg x hx) }

theorem fillBuf (h : BusFrame stored n s u) (d : Bytes6) : BusFrame stored n s (fillBuf n d u) where
  bus_wf := h.bus_wf
  devaddr := h.devaddr
  reg := h.reg
  draws := h.draws
  buf hd := by
    obtain ⟨d', hd'⟩ := h.buf hd
    exact ⟨d, by rw [fillBuf_buf, hd', Bytes6.fill_fill]⟩

theorem scrambleBuf (h : BusFrame stored n s u) : BusFrame stored n s (scrambleBuf u) where
  bus_wf := h.bus_wf
  devaddr := h.devaddr
  reg := h.reg
  draws := Nat.le_succ_of_le h.draws
  buf hd := absurd (Nat.lt_succ_of_le h.draws) (by rw [← hd]; exact lt_irrefl _)

theorem complete (h : BusFrame stored n s u) {ok : Bool} {ev : BitVec 3} : BusFrame stored n s (complete ok ev u) :=
  { h with }

/-- A register write stores to the register it names. -/
theorem busWrite (h : BusFrame stored n s u) {k : BitVec 4} {r v : Byte} {go : Bool → State → State}
    (hr : r ∈ stored) (hgo : ∀ ok w, BusFrame stored n s w → BusFrame stored n s (go ok w)) :
    BusFrame stored n s (busWrite k [r, v] u go) := by
  refine busWrite_ind (fun _ => { h with }) fun a t ht => hgo _ _ ?_
  exact h.answered (Transport.respond_wf ht h.bus_wf) fun x hx =>
    Transport.reg_write h.bus_wf ht fun hxr => hx (hxr ▸ hr)

/-- A select stores to no register. -/
theorem select (h : BusFrame stored n s u) {r : Byte} {a : Answer} {t : Transport}
    (ht : u.bus.respond (.write u.devaddr [r]) = some (a, t)) {e : Event} :
    BusFrame stored n s (Machine.answered e t u) :=
  h.answered (Transport.respond_wf ht h.bus_wf) fun x _ => Transport.reg_select ht x

/-- The read after the select of `r` clears `0x30` or does not reach it. -/
theorem busRead_selected (h : BusFrame stored n s u) {k : BitVec 4} {r : Byte} {d : Bytes6} {t : Transport} {e : Event}
    {go : Bool → State → State} (hr : regIntSource ∈ stored ∨ n ≤ (regIntSource - r).toNat)
    (ht : u.bus.respond (.write u.devaddr [r]) = some (.success d, t))
    (hgo : ∀ ok w, BusFrame stored n s w → BusFrame stored n s (go ok w)) :
    BusFrame stored n s (busRead k n (Machine.answered e t u) go) := by
  have hsel : BusFrame stored n s (Machine.answered e t u) := h.select ht
  have hread : ∀ {a t' e'}, t.respond (.read u.devaddr n) = some (a, t') →
      BusFrame stored n s (Machine.answered e' t' (Machine.answered e t u)) := by
    intro a t' e' ht'
    refine hsel.answered (Transport.respond_wf ht' hsel.bus_wf) fun x hx => ?_
    obtain hmem | hn := hr
    · exact Transport.reg_read hsel.bus_wf ht' fun hxr => hx (hxr ▸ hmem)
    · exact (Transport.reg_select_read h.bus_wf ht ht' hn x).trans (Transport.reg_select ht x).symm
  exact busRead_ind (fun _ => { hsel with }) (fun d _ ht' => hgo _ _ ((hread ht').fillBuf d))
    fun _ ht' => hgo _ _ (hread ht').scrambleBuf

theorem regRead (h : BusFrame stored n s u) {k₁ k₂ : BitVec 4} {r : Byte} {go : Bool → State → State}
    (hr : regIntSource ∈ stored ∨ n ≤ (regIntSource - r).toNat)
    (hgo : ∀ ok w, BusFrame stored n s w → BusFrame stored n s (go ok w)) :
    BusFrame stored n s (regRead k₁ k₂ r n u go) :=
  regRead_ind (fun _ => { h with }) (fun _ ht => hgo _ _ (h.select ht)) fun _ _ ht => h.busRead_selected hr ht hgo

theorem readBurst (h : BusFrame stored 6 s u) {go : Bool → State → State}
    (hr : regIntSource ∈ stored ∨ 6 ≤ (regIntSource - regData).toNat)
    (hgo : ∀ ok w, BusFrame stored 6 s w → BusFrame stored 6 s (go ok w)) : BusFrame stored 6 s (readBurst u go) :=
  readBurst_ind (fun _ => { h with }) (fun _ ht => hgo _ _ (h.select ht).scrambleBuf)
    fun _ _ ht => h.busRead_selected hr ht hgo

theorem configWrites {fold : Bool → State → State} {go : State → State}
    (hfold : ∀ ok w, BusFrame stored n s w → BusFrame stored n s (fold ok w))
    (hgo : ∀ w, BusFrame stored n s w → BusFrame stored n s (go w)) :
    ∀ {ws : List (Byte × Byte)} {k : BitVec 4} {u : State}, BusFrame stored n s u → (∀ w ∈ ws, w.1 ∈ stored) →
      BusFrame stored n s (configWrites k fold ws u go) := by
  intro ws
  induction ws with
  | nil => intro k u h _; exact hgo u h
  | cons w ws ih =>
    intro k u h hws
    rw [configWrites_cons]
    exact h.busWrite (hws w (.head _)) fun ok v hv => ih (hfold ok v hv) fun w' hw' => hws w' (.tail _ hw')

/-- A command that tests RDY ends at once, or goes on from its acceptance. -/
theorem ifReady {w : CmdWord} {go : State → State} (hwf : s.bus.wf = true)
    (hgo : BusFrame stored n s (accept w s) → BusFrame stored n s (go (accept w s))) :
    BusFrame stored n s (ifReady (accept w s) go) :=
  have haccept : BusFrame stored n s (accept w s) := { BusFrame.refl stored n hwf with }
  ifReady_ind (fun _ => haccept.complete) fun _ => hgo haccept

/-- BUF where nothing was read. -/
theorem buf_zero {t : State} (h : BusFrame stored 0 s t) (hd : t.draws = s.draws) : t.buf = s.buf := by
  obtain ⟨_, hbuf⟩ := h.buf hd
  exact hbuf

/-- BUF[1..5] where every read was of one byte. -/
theorem buf_one {t : State} (h : BusFrame stored 1 s t) (hd : t.draws = s.draws) :
    t.buf = { s.buf with b0 := t.buf.b0 } := by
  obtain ⟨d, hbuf⟩ := h.buf hd
  rw [hbuf, Bytes6.fill_one]

end BusFrame

/-! ### The commands -/

/-- The configuration registers (00_scope.md R7). -/
def configRegisters : List Byte := [0x24, 0x27, 0x2C, 0x2D, 0x2E]

theorem configSequence_stored (P : Params) : ∀ w ∈ configSequence P, w.1 ∈ configRegisters := by
  simp [configSequence, configRegisters]

theorem initCommand_busFrame {P : Params} {a7 : BitVec 7} {s : State} (hwf : s.bus.wf = true) :
    BusFrame configRegisters 1 (beginInit a7 (accept (initWord a7) s)) (initCommand P a7 s) := by
  refine (BusFrame.refl (s := beginInit a7 (accept (initWord a7) s)) _ _ hwf).regRead (.inr (by decide))
    fun ok u hu => ?_
  split
  · have hready : BusFrame configRegisters 1 _ (setReady u) := { hu with }
    exact .configWrites (fold := foldRdy) (fun _ _ hw => { hw with }) (fun _ hw => hw.complete) hready
      (configSequence_stored P)
  · exact hu.complete

theorem intEnableCommand_busFrame {P : Params} {s : State} (hwf : s.bus.wf = true) :
    BusFrame (configRegisters ++ [0x30]) 1 s (intEnableCommand P s) := by
  have hstored : ∀ w ∈ configSequence P, w.1 ∈ configRegisters ++ [0x30] := fun w hw =>
    List.mem_append_left _ (configSequence_stored P w hw)
  refine .ifReady hwf fun haccept => ?_
  have hacc : BusFrame (configRegisters ++ [0x30]) 1 s (setAcc (accept 0x5000 s)) := { haccept with }
  refine .configWrites (fold := foldAcc) (fun _ _ hw => { hw with }) (fun u hu => ?_) hacc
    fun w hw => hstored w (List.mem_of_mem_take hw)
  refine hu.regRead (.inl (by decide)) fun _ v hv => ?_
  exact .configWrites (fold := foldAcc) (fun _ _ hw => { hw with }) (fun _ hw => hw.complete) hv
    fun w hw => hstored w (List.mem_of_mem_drop hw)

theorem readCommand_busFrame {P : Params} {mask : BitVec 3} {s : State} (hwf : s.bus.wf = true) :
    BusFrame [0x2D] 6 s (readCommand P mask s) := by
  refine .ifReady hwf fun haccept => haccept.busWrite (.head _) fun ok u hu => ?_
  split
  · have hwait : BusFrame [0x2D] 6 s (waitSettle P u) := { hu with }
    refine hwait.readBurst (.inr (by decide)) fun ok v hv => ?_
    split
    · exact { hv with }
    · exact hv.complete
  · exact hu.complete

theorem intQueryCommand_busFrame {s : State} (hwf : s.bus.wf = true) : BusFrame [] 1 s (intQueryCommand s) :=
  .ifReady hwf fun haccept => haccept.regRead (.inr (by decide)) fun _ _ hu => hu.complete

theorem intHandleCommand_busFrame {s : State} (hwf : s.bus.wf = true) : BusFrame [0x30] 1 s (intHandleCommand s) :=
  .ifReady hwf fun haccept => haccept.regRead (.inl (.head _)) fun _ _ hu => hu.complete

/-- The one write of SET_THRESH and INT_DISABLE stores to its register, and nothing is read. -/
theorem singleWrite_busFrame {w : CmdWord} {r v : Byte} {s : State} (hwf : s.bus.wf = true) :
    BusFrame [r] 0 s (ifReady (accept w s) fun s => regWrite 1 r [v] s fun ok s => complete ok 0 s) :=
  .ifReady hwf fun haccept => haccept.busWrite (.head _) fun _ _ hu => hu.complete

theorem singleWrite_draws {w : CmdWord} {r v : Byte} {s : State} :
    (ifReady (accept w s) fun s => regWrite 1 r [v] s fun ok s => complete ok 0 s).draws = s.draws :=
  ifReady_ind (Q := fun t => t.draws = s.draws) (fun _ => rfl) fun _ =>
    busWrite_ind (Q := fun t => t.draws = s.draws) (fun _ => rfl) fun _ _ _ => rfl

/-! ### The frames -/

/-- Settles O32: the registers INIT does not own, and its big step's transactions. -/
theorem initFrame : Obligations.InitFrame := by
  intro a7 s t hwf h
  obtain ⟨hkeep, hinbox⟩ := exec_keepsOthers rfl h
  cases h
  have hbus := initCommand_busFrame (P := params) (a7 := a7) hwf
  exact ⟨hbus.devaddr, hkeep.outX (by simp), hkeep.outY (by simp), hkeep.outZ (by simp), hkeep.acc (by simp), hinbox,
    hbus.buf_one, hbus.reg⟩

/-- Settles O36: the burst from `0x32` does not reach `0x30`. -/
theorem readFrame : Obligations.ReadFrame := by
  intro mask s t hwf h
  obtain ⟨hkeep, hinbox⟩ := exec_keepsOthers rfl h
  cases h
  have hbus := readCommand_busFrame (P := params) (mask := mask) hwf
  have hmask : ∀ {b : Nat}, mask.getLsbD b = false →
      ∀ m, some (Instr.read mask) = some (.read m) → m.getLsbD b = false :=
    fun hb m hm => by cases hm; exact hb
  exact ⟨hkeep.rdy (by simp), hkeep.devaddr (by simp), hkeep.acc (by simp), hinbox, fun hb => hkeep.outX (hmask hb),
    fun hb => hkeep.outY (hmask hb), fun hb => hkeep.outZ (hmask hb), fun x hx => hbus.reg x (by simpa using hx)⟩

/-- A command other than READ, INIT and INT_ENABLE owns no register. -/
theorem exec_keepsRegisters {i : Instr} {s t : State}
    (hi : i = .intQuery ∨ i = .intHandle ∨ i = .intDisable ∨ ∃ v, i = .setThresh v) (h : exec i s = .next t) :
    t.outX = s.outX ∧ t.outY = s.outY ∧ t.outZ = s.outZ ∧ t.devaddr = s.devaddr ∧ t.rdy = s.rdy ∧ t.acc = s.acc
      ∧ t.inbox = s.inbox := by
  have hcmd : isCommand i = true := by obtain rfl | rfl | rfl | ⟨v, rfl⟩ := hi <;> rfl
  obtain ⟨hkeep, hinbox⟩ := exec_keepsOthers hcmd h
  obtain rfl | rfl | rfl | ⟨v, rfl⟩ := hi <;>
    exact ⟨hkeep.outX (by simp), hkeep.outY (by simp), hkeep.outZ (by simp), hkeep.devaddr (by simp),
      hkeep.rdy (by simp), hkeep.acc (by simp), hinbox⟩

/-- Settles O39: both commands make one write and no read. -/
theorem singleWriteFrame : Obligations.SingleWriteFrame := by
  intro i reg s t hi hwf h
  have hbus : BusFrame [reg] 0 s t ∧ t.draws = s.draws := by
    obtain ⟨⟨v, rfl⟩, rfl⟩ | ⟨rfl, rfl⟩ := hi <;> cases h <;> exact ⟨singleWrite_busFrame hwf, singleWrite_draws⟩
  obtain ⟨hframe, hdraws⟩ := hbus
  obtain ⟨hX, hY, hZ, hdev, hrdy, hacc, hinbox⟩ :=
    exec_keepsRegisters (hi.elim (fun h => .inr (.inr (.inr h.1))) fun h => .inr (.inr (.inl h.1))) h
  exact ⟨hX, hY, hZ, hdev, hrdy, hacc, hframe.buf_zero hdraws, hdraws, hinbox,
    fun x hx => hframe.reg x (by simpa using hx)⟩

/-- Settles O43: the read of `0x2E` does not reach `0x30`, which INT_HANDLE's read clears. -/
theorem singleReadFrame : Obligations.SingleReadFrame := by
  intro i s t hi hwf h
  obtain ⟨hX, hY, hZ, hdev, hrdy, hacc, hinbox⟩ := exec_keepsRegisters (hi.imp_right .inl) h
  obtain rfl | rfl := hi <;> cases h
  · have hbus := intQueryCommand_busFrame hwf
    exact ⟨hX, hY, hZ, hdev, hrdy, hacc, hinbox, hbus.buf_one, fun x _ => hbus.reg x List.not_mem_nil⟩
  · have hbus := intHandleCommand_busFrame hwf
    exact ⟨hX, hY, hZ, hdev, hrdy, hacc, hinbox, hbus.buf_one, fun x hx => hbus.reg x (by simpa using hx rfl)⟩

/-- Settles O46: the registers INT_ENABLE does not own, and its big step's transactions. -/
theorem intEnableFrame : Obligations.IntEnableFrame := by
  intro s t hwf h
  obtain ⟨hkeep, hinbox⟩ := exec_keepsOthers rfl h
  cases h
  have hbus := intEnableCommand_busFrame (P := params) hwf
  exact ⟨hkeep.outX (by simp), hkeep.outY (by simp), hkeep.outZ (by simp), hkeep.devaddr (by simp), hkeep.rdy (by simp),
    hinbox, hbus.buf_one, hbus.reg⟩

end Sys2Proof.Machine
end

section
/-! PROOF. The registers without a reset value are not read before they are written (10_state.md R37). Two runs of a
command that differ in OUT, ACC and BUF alone are followed side by side along the big step: they issue the same
transactions and get the same answers. What a command reads of BUF it has received, and of ACC it has set. -/

namespace Sys2Proof.Machine

/-- `t` is `s` but for OUT, ACC and BUF; where `p` holds ACC is the same too. -/
def AgreesBut (p : Prop) (s t : State) : Prop :=
  ∃ x y z a b, (p → a = s.acc) ∧ t = { s with outX := x, outY := y, outZ := z, acc := a, buf := b }

namespace AgreesBut

variable {p : Prop} {s t : State}

theorem complete (h : AgreesBut p s t) (ok : Bool) (ev : BitVec 3) :
    AgreesBut p (complete ok ev s) (complete ok ev t) := by
  obtain ⟨_, _, _, _, _, hacc, rfl⟩ := h
  exact ⟨_, _, _, _, _, hacc, rfl⟩

theorem await (h : AgreesBut p s t) (k : BitVec 4) (r : Request) : AgreesBut p (await k r s) (await k r t) := by
  obtain ⟨_, _, _, _, _, hacc, rfl⟩ := h
  exact ⟨_, _, _, _, _, hacc, rfl⟩

theorem answered (h : AgreesBut p s t) (e : Event) (b : Transport) :
    AgreesBut p (answered e b s) (answered e b t) := by
  obtain ⟨_, _, _, _, _, hacc, rfl⟩ := h
  exact ⟨_, _, _, _, _, hacc, rfl⟩

theorem fillBuf (h : AgreesBut p s t) (n : Nat) (d : Bytes6) : AgreesBut p (fillBuf n d s) (fillBuf n d t) := by
  obtain ⟨_, _, _, _, _, hacc, rfl⟩ := h
  exact ⟨_, _, _, _, _, hacc, rfl⟩

theorem scrambleBuf (h : AgreesBut p s t) : AgreesBut p (scrambleBuf s) (scrambleBuf t) := by
  obtain ⟨_, _, _, _, _, hacc, rfl⟩ := h
  exact ⟨_, _, _, _, _, hacc, rfl⟩

theorem foldRdy (h : AgreesBut p s t) (ok : Bool) : AgreesBut p (foldRdy ok s) (foldRdy ok t) := by
  obtain ⟨_, _, _, _, _, hacc, rfl⟩ := h
  exact ⟨_, _, _, _, _, hacc, rfl⟩

theorem foldAcc (h : AgreesBut p s t) (ok : Bool) : AgreesBut p (foldAcc ok s) (foldAcc ok t) := by
  obtain ⟨_, _, _, _, _, hacc, rfl⟩ := h
  exact ⟨_, _, _, _, _, fun hp => congrArg (· && ok) (hacc hp), rfl⟩

theorem setReady (h : AgreesBut p s t) : AgreesBut p (setReady s) (setReady t) := by
  obtain ⟨_, _, _, _, _, hacc, rfl⟩ := h
  exact ⟨_, _, _, _, _, hacc, rfl⟩

theorem setAcc (h : AgreesBut p s t) : AgreesBut True (setAcc s) (setAcc t) := by
  obtain ⟨_, _, _, _, _, -, rfl⟩ := h
  exact ⟨_, _, _, _, _, fun _ => rfl, rfl⟩

theorem waitSettle (h : AgreesBut p s t) (P : Params) : AgreesBut p (waitSettle P s) (waitSettle P t) := by
  obtain ⟨_, _, _, _, _, hacc, rfl⟩ := h
  exact ⟨_, _, _, _, _, hacc, rfl⟩

theorem writeSlots (h : AgreesBut p s t) (mask : BitVec 3) : AgreesBut p (writeSlots mask s) (writeSlots mask t) := by
  obtain ⟨_, _, _, _, _, hacc, rfl⟩ := h
  exact ⟨_, _, _, _, _, hacc, rfl⟩

theorem bus (h : AgreesBut p s t) : t.bus = s.bus := by obtain ⟨_, _, _, _, _, _, rfl⟩ := h; rfl

theorem devaddr (h : AgreesBut p s t) : t.devaddr = s.devaddr := by obtain ⟨_, _, _, _, _, _, rfl⟩ := h; rfl

theorem rdy (h : AgreesBut p s t) : t.rdy = s.rdy := by obtain ⟨_, _, _, _, _, _, rfl⟩ := h; rfl

theorem acc (h : AgreesBut True s t) : t.acc = s.acc := by obtain ⟨_, _, _, _, _, hacc, rfl⟩ := h; exact hacc trivial

theorem weaken (h : AgreesBut p s t) : AgreesBut False s t := by
  obtain ⟨_, _, _, _, _, -, rfl⟩ := h
  exact ⟨_, _, _, _, _, False.elim, rfl⟩

/-- Both writes wait, or both go on with one answer. -/
theorem busWrite (h : AgreesBut p s t) {k : BitVec 4} {bytes : List Byte} {go : Bool → State → State}
    (hgo : ∀ ok u v, AgreesBut p u v → AgreesBut p (go ok u) (go ok v)) :
    AgreesBut p (busWrite k bytes s go) (busWrite k bytes t go) := by
  have hresp : t.bus.respond (.write t.devaddr bytes) = s.bus.respond (.write s.devaddr bytes) := by
    rw [h.bus, h.devaddr]
  cases hr : s.bus.respond (.write s.devaddr bytes) with
  | none => rw [busWrite_none hr, busWrite_none (hresp.trans hr), h.devaddr]; exact h.await _ _
  | some a => rw [busWrite_some hr, busWrite_some (hresp.trans hr), h.devaddr]; exact hgo _ _ _ (h.answered _ _)

/-- Both reads wait, or both go on with one answer; on success the first byte received is the same. -/
theorem busRead (h : AgreesBut p s t) {k : BitVec 4} {n : Nat} {go : Bool → State → State} (hn : 0 < n)
    (hgo : ∀ ok u v, AgreesBut p u v → (ok = true → v.buf.b0 = u.buf.b0) → AgreesBut p (go ok u) (go ok v)) :
    AgreesBut p (busRead k n s go) (busRead k n t go) := by
  have hresp : t.bus.respond (.read t.devaddr n) = s.bus.respond (.read s.devaddr n) := by rw [h.bus, h.devaddr]
  cases hr : s.bus.respond (.read s.devaddr n) with
  | none => rw [busRead_none hr, busRead_none (hresp.trans hr), h.devaddr]; exact h.await _ _
  | some a =>
    obtain ⟨a, b⟩ := a
    cases a with
    | success d =>
      rw [busRead_success hr, busRead_success (hresp.trans hr), h.devaddr]
      exact hgo _ _ _ ((h.answered _ _).fillBuf _ _) fun _ => by simp [Bytes6.fill, hn]
    | failure =>
      rw [busRead_failure hr, busRead_failure (hresp.trans hr), h.devaddr]
      exact hgo _ _ _ (h.answered _ _).scrambleBuf (by simp)

theorem regRead (h : AgreesBut p s t) {k₁ k₂ : BitVec 4} {r : Byte} {n : Nat} {go : Bool → State → State} (hn : 0 < n)
    (hgo : ∀ ok u v, AgreesBut p u v → (ok = true → v.buf.b0 = u.buf.b0) → AgreesBut p (go ok u) (go ok v)) :
    AgreesBut p (regRead k₁ k₂ r n s go) (regRead k₁ k₂ r n t go) := by
  simp only [regRead_eq]
  refine h.busWrite fun ok u v huv => ?_
  cases ok with
  | false => exact hgo _ _ _ huv (by simp)
  | true => exact huv.busRead hn hgo

theorem readBurst (h : AgreesBut p s t) {go : Bool → State → State}
    (hgo : ∀ ok u v, AgreesBut p u v → AgreesBut p (go ok u) (go ok v)) :
    AgreesBut p (readBurst s go) (readBurst t go) := by
  refine h.busWrite fun ok u v huv => ?_
  cases ok with
  | false => exact hgo _ _ _ huv.scrambleBuf
  | true => exact huv.busRead (by decide) fun ok u v huv _ => hgo ok u v huv

theorem configWrites {fold : Bool → State → State} {go : State → State}
    (hfold : ∀ ok u v, AgreesBut p u v → AgreesBut p (fold ok u) (fold ok v))
    (hgo : ∀ u v, AgreesBut p u v → AgreesBut p (go u) (go v)) :
    ∀ {ws : List (Byte × Byte)} {k : BitVec 4} {s t : State}, AgreesBut p s t →
      AgreesBut p (configWrites k fold ws s go) (configWrites k fold ws t go) := by
  intro ws
  induction ws with
  | nil => intro k s t h; exact hgo s t h
  | cons w ws ih => intro k s t h; exact h.busWrite fun ok u v huv => ih (hfold ok u v huv)

end AgreesBut

/-! ### The commands -/

/-- The state `s` with the registers that have no reset value as `u` has them. -/
def withUnspecified (u : Config.Unspecified) (s : State) : State :=
  { s with
    outX := u.outX, outY := u.outY, outZ := u.outZ, devaddr := u.devaddr, op := u.op, arg := u.arg, acc := u.acc,
    buf := u.buf }

/-- INIT writes DEVADDR first, so that it agrees whatever DEVADDR was. -/
theorem initCommand_agrees (P : Params) (a7 : BitVec 7) (u : Config.Unspecified) (s : State) :
    AgreesBut False (initCommand P a7 s) (initCommand P a7 (withUnspecified u s)) := by
  have hbegin : AgreesBut False (beginInit a7 (accept (initWord a7) s))
      (beginInit a7 (accept (initWord a7) (withUnspecified u s))) := ⟨_, _, _, _, _, False.elim, rfl⟩
  refine hbegin.regRead (by decide) fun ok v w hvw hb0 => ?_
  cases ok with
  | false => exact hvw.complete false 0
  | true =>
    rw [hb0 rfl]
    split
    · refine .configWrites (fun ok _ _ h => h.foldRdy ok) (fun v w h => ?_) hvw.setReady
      rw [h.rdy]
      exact h.complete _ _
    · exact hvw.complete false 0

/-- The other commands on a ready machine, DEVADDR the same in both. -/
theorem exec_agrees_of_ready {i : Instr} {w : CmdWord} {s s' : State} (hi : testsReady i = true)
    (hw : encode i = .command w) (hr : s.rdy = true) (h : AgreesBut False (accept w s) (accept w s')) :
    ∃ t t', exec i s = .next t ∧ exec i s' = .next t' ∧ AgreesBut False t t' := by
  have hr' : s'.rdy = true := h.rdy.trans hr
  have hready : ∀ {p : Prop} {go : State → State}, AgreesBut p (go (accept w s)) (go (accept w s')) →
      AgreesBut False (ifReady (accept w s) go) (ifReady (accept w s') go) := fun hgo => by
    rw [ifReady_of_ready (s := accept w s) hr, ifReady_of_ready (s := accept w s') hr']
    exact hgo.weaken
  cases i with
  | read mask =>
    cases hw
    refine ⟨_, _, rfl, rfl, hready (h.busWrite fun ok u v huv => ?_)⟩
    cases ok with
    | false => exact huv.complete false 0
    | true =>
      refine (huv.waitSettle params).readBurst fun ok u v huv => ?_
      cases ok with
      | false => exact huv.complete false 0
      | true => exact (huv.writeSlots mask).complete true 0
  | setThresh | intDisable => cases hw; exact ⟨_, _, rfl, rfl, hready (h.busWrite fun ok _ _ huv => huv.complete ok 0)⟩
  | intQuery =>
    cases hw
    refine ⟨_, _, rfl, rfl, hready (h.regRead (by decide) fun ok u v huv hb0 => ?_)⟩
    cases ok with
    | false => exact huv.complete false 0
    | true => rw [hb0 rfl]; exact huv.complete _ 0
  | intHandle =>
    cases hw
    refine ⟨_, _, rfl, rfl, hready (h.regRead (by decide) fun ok u v huv hb0 => ?_)⟩
    cases ok with
    | false => exact huv.complete false 0
    | true => rw [hb0 rfl]; exact huv.complete false _
  | intEnable =>
    cases hw
    refine ⟨_, _, rfl, rfl, hready (p := True) ?_⟩
    refine .configWrites (fun ok _ _ h => h.foldAcc ok) (fun u v huv => ?_) h.setAcc
    refine huv.regRead (by decide) fun _ u v huv _ => ?_
    refine .configWrites (fun ok _ _ h => h.foldAcc ok) (fun u v huv => ?_) huv
    rw [huv.acc]
    exact huv.complete _ 0
  | init _ => cases hi
  | wrThreshAct _ | wrActInactCtl _ | wrBwRate _ | wrPowerCtl _ | wrIntEnable _ => cases hi
  | rdDevid | rdIntEnable | rdIntSource | rdData => cases hi

/-! ### The step -/

/-- What the two runs of `Obligations.UnspecifiedRegistersUnread` have in common. -/
def SameRun (t t' : State) : Prop :=
  t'.trace = t.trace ∧ t'.delivered = t.delivered ∧ t'.respOk = t.respOk ∧ t'.respEv = t.respEv ∧ t'.rdy = t.rdy
    ∧ t'.busy = t.busy ∧ t'.stepNo = t.stepNo ∧ t'.req = t.req ∧ t'.bus = t.bus ∧ t'.op = t.op ∧ t'.arg = t.arg

theorem AgreesBut.sameRun {p : Prop} {t t' : State} (h : AgreesBut p t t') : SameRun t t' := by
  obtain ⟨_, _, _, _, _, _, rfl⟩ := h
  exact ⟨rfl, rfl, rfl, rfl, rfl, rfl, rfl, rfl, rfl, rfl, rfl⟩

theorem init_or_testsReady {i : Instr} (hi : isCommand i = true) : (∃ a7, i = .init a7) ∨ testsReady i = true := by
  cases i with
  | init a7 => exact .inl ⟨a7, rfl⟩
  | read _ | setThresh _ | intQuery | intEnable | intDisable | intHandle => exact .inr rfl
  | wrThreshAct _ | wrActInactCtl _ | wrBwRate _ | wrPowerCtl _ | wrIntEnable _ => cases hi
  | rdDevid | rdIntEnable | rdIntSource | rdData => cases hi

/-- A command runs the same whatever the unspecified registers hold, DEVADDR on a ready machine excepted. -/
theorem exec_unread {i : Instr} {s : State} {u : Config.Unspecified} (hi : isCommand i = true)
    (hdev : s.rdy = true → u.devaddr = s.devaddr) :
    ∃ t t', exec i s = .next t ∧ exec i (withUnspecified u s) = .next t' ∧ SameRun t t'
      ∧ (s.rdy = true → t'.devaddr = t.devaddr) := by
  obtain ⟨w, hw⟩ := exists_encode_command hi
  suffices hrun : (∃ t t', exec i s = .next t ∧ exec i (withUnspecified u s) = .next t' ∧ AgreesBut False t t')
      ∨ (testsReady i = true ∧ s.rdy = false) by
    obtain ⟨t, t', h, h', hag⟩ | ⟨ht, hr⟩ := hrun
    · exact ⟨t, t', h, h', hag.sameRun, fun _ => hag.devaddr⟩
    · exact ⟨_, _, exec_of_not_ready ht hw hr, exec_of_not_ready ht hw hr,
        ⟨rfl, rfl, rfl, rfl, rfl, rfl, rfl, rfl, rfl, rfl, rfl⟩, by simp [hr]⟩
  obtain ⟨a7, rfl⟩ | ht := init_or_testsReady hi
  · exact .inl ⟨_, _, rfl, rfl, initCommand_agrees params a7 u s⟩
  · cases hr : s.rdy with
    | false => exact .inr ⟨ht, rfl⟩
    | true =>
      have haccept : AgreesBut False (accept w s) (accept w (withUnspecified u s)) :=
        ⟨u.outX, u.outY, u.outZ, u.acc, u.buf, False.elim, by simp [accept, withUnspecified, hdev hr]⟩
      exact .inl (exec_agrees_of_ready ht hw hr haccept)

theorem step_word_unread {s : State} {u : Config.Unspecified} {w : CmdWord} {rest : List HostEvent} (hi : s.Idle)
    (hx : s.inbox = .issue (.command w) :: rest) (hdev : s.rdy = true → u.devaddr = s.devaddr) :
    ∃ t t', step s = .next t ∧ step (withUnspecified u s) = .next t' ∧ SameRun t t'
      ∧ (s.rdy = true → t'.devaddr = t.devaddr) := by
  have hi' : (withUnspecified u s).Idle := hi
  have hx' : (withUnspecified u s).inbox = .issue (.command w) :: rest := hx
  cases hd : decodeCommand w with
  | instr i =>
    rw [step_of_issue hi hx hd rfl, step_of_issue hi' hx' hd rfl]
    exact exec_unread (s := takeInput rest s) (isCommand_of_decodeCommand hd) hdev
  | rejected r =>
    rw [step_of_rejected hi hx hd, step_of_rejected hi' hx' hd]
    exact ⟨_, _, rfl, rfl, ⟨rfl, rfl, rfl, rfl, rfl, rfl, rfl, rfl, rfl, rfl, rfl⟩, hdev⟩

/-- A row leaves DEVADDR a bus form. -/
theorem RowTo.even {P : Params} {i : Instr} {s t : State} (h : RowTo P i s t) (hs : s.devaddr.getLsbD 0 = false) :
    t.devaddr.getLsbD 0 = false := by
  cases h with
  | waits => exact hs
  | ends _ hu _ hf | goes _ _ _ hu _ hf => exact hf.even (hu.devaddr ▸ hs)

/-- After INIT's part of a step DEVADDR is a bus form: INIT has written it in this step or in an earlier one. -/
theorem RunsFrom.init_even {a7 : BitVec 7} {s u t : State} (hu : RunsFrom (.init a7) s u) (hs : s.Inv)
    (h : runSteps params 10 u = .next t) : t.devaddr.getLsbD 0 = false := by
  cases hu with
  | resumed hb hc =>
    exact runSteps_ind (Q := fun v => v.devaddr.getLsbD 0 = false)
      (fun _ _ _ hu hv => (tickCommand_rowTo hv).even hu) hb hc (hs.devaddr_even (.inr hb)) h
  | @accepted w rest _ hw =>
    rw [← bigStepIsTheStepTable _ w (takeInput rest s) rfl hw] at h
    obtain ⟨hdev, -⟩ := initFrame a7 (takeInput rest s) t hs.bus_wf h
    exact hdev ▸ busForm_even a7

/-- A command other than INIT that makes a transaction in a step has found RDY set. -/
theorem RunsFrom.ready {i : Instr} {s u t : State} (hu : RunsFrom i s u) (hs : s.Inv) (hi : isCommand i = true)
    (ht : testsReady i = true) (h : runSteps params 10 u = .next t)
    (htrans : t.trace = s.trace → t.req = none → False) :
    s.rdy = true := by
  cases hu with
  | resumed hb hc => exact hs.busy_ready hb i hc ht
  | @accepted w rest _ hw =>
    by_contra hr
    rw [← bigStepIsTheStepTable i w (takeInput rest s) hi hw,
      exec_of_not_ready (s := takeInput rest s) ht hw (by simpa using hr)] at h
    cases h
    exact htrans rfl rfl

/-- A step that leaves a transaction in the trace or at the port runs INIT or finds RDY set, and DEVADDR is a bus form
after it. -/
theorem transaction_addressed {s t : State} (hs : s.Inv) (h : step s = .next t)
    (htrans : t.trace ≠ s.trace ∨ t.req.isSome = true) :
    ((∃ a7, running s = some (.init a7)) ∨ s.rdy = true) ∧ t.devaddr.getLsbD 0 = false := by
  have hquiet : t.trace = s.trace → t.req = none → False := fun htr hreq => by simp [htr, hreq] at htrans
  cases step_outcome h with
  | reset => cases hquiet rfl rfl
  | @command i u _ hi hrun hu ht =>
    obtain ⟨a7, rfl⟩ | htest := init_or_testsReady hi
    · exact ⟨.inl ⟨a7, hrun⟩, hu.init_even hs ht⟩
    · have hrdy := hu.ready hs hi htest ht hquiet
      have hdev : t.devaddr = u.devaddr := (runSteps_keepsOthers hu.busy hu.command ht).devaddr fun a7 hi => by
        cases hi; cases htest
      have hdev' : u.devaddr = s.devaddr := by cases hu <;> rfl
      exact ⟨.inr hrdy, (hdev.trans hdev') ▸ hs.devaddr_even (.inl hrdy)⟩
  | registerOp hb hr ht =>
    have hrdy : s.rdy = true := hr.elim id (hs.idle_req_ready hb)
    have hdev : t.devaddr = s.devaddr := (ht.keepsOthers none).devaddr (by simp)
    exact ⟨.inr hrdy, hdev ▸ hs.devaddr_even (.inl hrdy)⟩
  | notAdmitted hi => cases hquiet rfl hi.2
  | reservedWord => cases hquiet rfl rfl
  | outside hi => cases hquiet rfl hi.2

/-- Settles O28: two runs side by side for the first two parts, and what a step can do for the third. -/
theorem unspecifiedRegistersUnread : Obligations.UnspecifiedRegistersUnread := by
  refine ⟨fun s u w rest hi hr hx => ?_, fun s u w rest hi hr hx => ?_, fun s t => transaction_addressed⟩
  · obtain ⟨t, t', h, h', hrun, -⟩ := step_word_unread (u := u) hi hx (by simp [hr])
    exact ⟨t, t', h, h', hrun⟩
  · obtain ⟨t, t', h, h', hrun, hdev⟩ := step_word_unread (u := { u with devaddr := s.devaddr }) hi hx fun _ => rfl
    obtain ⟨htrace, hdelivered, hok, hev, hrdy, hbusy, hstep, hreq, hbus, hop, harg⟩ := hrun
    exact ⟨t, t', h, h', htrace, hdelivered, hok, hev, hrdy, hbusy, hstep, hreq, hbus, hop, harg, hdev hr⟩

end Sys2Proof.Machine
end

section
/-! PROOF. What a step puts into the trace (20_memory.md R53, R57, R61). Each row of a table adds events of its command
to the device address the row finds, but INIT's first, which writes DEVADDR and makes no transaction. -/

namespace Sys2Proof.Machine

/-! ### Listed events -/

/-- `t` has the trace of `s` and then events that the spec lists for instruction `i`, to DEVADDR as `t` has it. -/
def Listed (P : Params) (i : Instr) (s t : State) : Prop :=
  ∃ events, t.trace = s.trace ++ events ∧ ∀ e ∈ events, allowedEvent P i t.devaddr e

/-- `t` has listed events added, and the device address of `s`. -/
structure AddsListed (P : Params) (i : Instr) (s t : State) : Prop where
  devaddr : t.devaddr = s.devaddr
  listed : Listed P i s t

theorem Listed.of_trace_eq {P : Params} {i : Instr} {s t : State} (h : t.trace = s.trace) : Listed P i s t :=
  ⟨[], by simpa using h, by simp⟩

/-- No read is of more than the six bytes of the data registers. -/
theorem le_six_of_mem_allowedReads {i : Instr} {n : Nat} (h : n ∈ allowedReads i) : n ≤ 6 := by
  cases i <;> simp [allowedReads] at h <;> omega

/-- The configuration writes are among those listed for INIT and INT_ENABLE. -/
theorem mem_allowedWrites_of_configSequence {P : Params} {w : Byte × Byte} (h : w ∈ configSequence P) (a7 : BitVec 7) :
    [w.1, w.2] ∈ allowedWrites P (.init a7) ∧ [w.1, w.2] ∈ allowedWrites P .intEnable := by
  simp only [configSequence, List.mem_cons, List.not_mem_nil, or_false] at h
  obtain rfl | rfl | rfl | rfl | rfl | rfl := h <;> simp [allowedWrites]

namespace AddsListed

variable {P : Params} {i : Instr} {s u v : State} {k : BitVec 4}

theorem refl (P : Params) (i : Instr) (s : State) : AddsListed P i s s := ⟨rfl, .of_trace_eq rfl⟩

/-- What leaves DEVADDR and the trace leaves the listed events. -/
theorem keeps (h : AddsListed P i s u) (hd : v.devaddr = u.devaddr) (ht : v.trace = u.trace) : AddsListed P i s v := by
  obtain ⟨hdev, events, htrace, hev⟩ := h
  exact ⟨hd.trans hdev, events, ht.trans htrace, hd ▸ hev⟩

/-- One more listed event. -/
theorem event (h : AddsListed P i s u) {e : Event} (hd : v.devaddr = u.devaddr) (ht : v.trace = u.trace ++ [e])
    (he : allowedEvent P i u.devaddr e) : AddsListed P i s v := by
  obtain ⟨hdev, events, htrace, hev⟩ := h
  refine ⟨hd.trans hdev, events ++ [e], by rw [ht, htrace, List.append_assoc], fun e' he' => ?_⟩
  rw [hd]
  obtain hold | hnew := List.mem_append.1 he'
  · exact hev e' hold
  · rwa [List.mem_singleton.1 hnew]

/-- Further listed events after those of an earlier part, to the same device address. -/
theorem after (h : AddsListed P i u v) (hs : Listed P i s u) : Listed P i s v := by
  obtain ⟨hd, events', htrace', hev'⟩ := h
  obtain ⟨events, htrace, hev⟩ := hs
  refine ⟨events ++ events', by rw [htrace', htrace, List.append_assoc], fun e he => ?_⟩
  obtain hold | hnew := List.mem_append.1 he
  · rw [hd]; exact hev e hold
  · exact hev' e hnew

/-- A listed write, then what goes on from its status. -/
theorem busWrite {bytes : List Byte} {go : Bool → State → State} (h : AddsListed P i s u)
    (hb : bytes ∈ allowedWrites P i) (hgo : ∀ ok v, AddsListed P i s v → AddsListed P i s (go ok v)) :
    AddsListed P i s (busWrite k bytes u go) :=
  busWrite_ind (fun _ => h.keeps rfl rfl) fun _ _ _ => hgo _ _ (h.event rfl rfl ⟨rfl, hb⟩)

/-- A listed read, all of whose bytes are in the trace where it succeeds and none where it fails (20_memory.md R57). -/
theorem busRead {n : Nat} {go : Bool → State → State} (h : AddsListed P i s u) (hn : n ∈ allowedReads i)
    (hgo : ∀ ok v, AddsListed P i s v → AddsListed P i s (go ok v)) : AddsListed P i s (busRead k n u go) :=
  busRead_ind (fun _ => h.keeps rfl rfl)
    (fun d _ _ => hgo _ _ (h.event rfl rfl ⟨rfl, hn, Bytes6.firstN_length (le_six_of_mem_allowedReads hn) d⟩))
    fun _ _ => hgo _ _ (h.event rfl rfl ⟨rfl, hn, rfl⟩)

/-- The row that tests RDY makes no transaction. -/
theorem ifReady {go : State → State} (hd : (go s).devaddr = s.devaddr) (ht : (go s).trace = s.trace) :
    AddsListed P i s (ifReady s go) :=
  ifReady_ind (fun _ => (refl P i s).keeps rfl rfl) fun _ => (refl P i s).keeps hd ht

/-- A row with a write whose failure ends the command. -/
theorem writeOrStop {bytes : List Byte} (hb : bytes ∈ allowedWrites P i) :
    AddsListed P i s (rowWriteOrStop k bytes s) :=
  (refl P i s).busWrite hb fun ok _ hv => by cases ok <;> exact hv.keeps rfl rfl

/-- A row with a configuration write. -/
theorem config {fold : Bool → State → State} {w : Byte × Byte} (hb : [w.1, w.2] ∈ allowedWrites P i)
    (hfold : ∀ ok u, (fold ok u).devaddr = u.devaddr ∧ (fold ok u).trace = u.trace) :
    AddsListed P i s (rowConfig k fold w s) :=
  (refl P i s).busWrite hb fun ok v hv => hv.keeps (hfold ok v).1 (hfold ok v).2

end AddsListed

/-! ### The step tables -/

theorem tickInit_listed {P : Params} {a7 : BitVec 7} {s t : State} (h : tickInit P a7 s = some t) :
    (s.stepNo = 0 ∧ t = goto 1 (beginInit a7 s)) ∨ AddsListed P (.init a7) s t := by
  have hconfig : ∀ k w, w ∈ configSequence P → AddsListed P (.init a7) s (rowConfig k foldRdy w s) := fun k w hw =>
    .config (mem_allowedWrites_of_configSequence hw a7).1 fun _ _ => ⟨rfl, rfl⟩
  unfold tickInit at h
  split at h <;> cases h
  case h_1 hk => exact .inl ⟨BitVec.eq_of_toNat_eq hk, rfl⟩
  case h_2 => exact .inr (.writeOrStop (by simp [allowedWrites]))
  case h_3 =>
    refine .inr ((AddsListed.refl ..).busRead (by simp [allowedReads]) fun ok v hv => ?_)
    split <;> exact hv.keeps rfl rfl
  case h_4 | h_5 | h_6 | h_7 | h_8 | h_9 => exact .inr (hconfig _ _ (by simp [configSequence]))
  case h_10 => exact .inr ((AddsListed.refl ..).keeps rfl rfl)

theorem tickRead_listed {P : Params} {mask : BitVec 3} {s t : State} (h : tickRead P mask s = some t) :
    AddsListed P (.read mask) s t := by
  unfold tickRead at h
  split at h <;> cases h
  case h_1 => exact .ifReady rfl rfl
  case h_2 => exact .writeOrStop (by simp [allowedWrites])
  case h_3 => exact (AddsListed.refl ..).event rfl rfl ⟨⟨mask, rfl⟩, rfl⟩
  case h_4 =>
    refine (AddsListed.refl ..).busWrite (by simp [allowedWrites]) fun ok _ hv => ?_
    cases ok <;> exact hv.keeps rfl rfl
  case h_5 =>
    refine (AddsListed.refl ..).busRead (by simp [allowedReads]) fun ok _ hv => ?_
    cases ok <;> exact hv.keeps rfl rfl
  case h_6 => exact (AddsListed.refl ..).keeps rfl rfl

theorem tickIntEnable_listed {P : Params} {s t : State} (h : tickIntEnable P s = some t) :
    AddsListed P .intEnable s t := by
  simp only [tickIntEnable] at h
  split at h
  · cases h; exact .ifReady rfl rfl
  split at h
  · cases h; exact (AddsListed.refl ..).keeps rfl rfl
  split at h
  · cases h
    exact (AddsListed.refl ..).busWrite (by simp [allowedWrites]) fun _ _ hv => hv.keeps rfl rfl
  split at h
  · cases h
    exact (AddsListed.refl ..).busRead (by simp [allowedReads]) fun _ _ hv => hv.keeps rfl rfl
  split at h
  next w hw =>
    split at h <;> cases h
    exact .config (mem_allowedWrites_of_configSequence (List.mem_of_getElem? hw) 0).2 fun _ _ => ⟨rfl, rfl⟩
  next => cases h

/-- Every row adds listed events and leaves DEVADDR, but INIT's first, which writes DEVADDR. -/
theorem tickCommand_listed {P : Params} {i : Instr} {s t : State} (h : tickCommand P i s = some t) :
    (s.stepNo = 0 ∧ ∃ a7, t = goto 1 (beginInit a7 s)) ∨ AddsListed P i s t := by
  cases i with
  | init a7 => exact (tickInit_listed h).imp_left fun ⟨hk, ht⟩ => ⟨hk, a7, ht⟩
  | read mask => exact .inr (tickRead_listed h)
  | intEnable => exact .inr (tickIntEnable_listed h)
  | setThresh | intDisable =>
    simp only [tickCommand, tickSetThresh, tickIntDisable] at h
    split at h <;> cases h
    case h_1 => exact .inr (.ifReady rfl rfl)
    case h_2 => exact .inr ((AddsListed.refl ..).busWrite (by simp [allowedWrites]) fun _ _ hv => hv.keeps rfl rfl)
  | intQuery | intHandle =>
    simp only [tickCommand, tickIntQuery, tickIntHandle] at h
    split at h <;> cases h
    case h_1 => exact .inr (.ifReady rfl rfl)
    case h_2 => exact .inr (.writeOrStop (by simp [allowedWrites]))
    case h_3 => exact .inr ((AddsListed.refl ..).busRead (by simp [allowedReads]) fun _ _ hv => hv.keeps rfl rfl)
  | wrThreshAct _ | wrActInactCtl _ | wrBwRate _ | wrPowerCtl _ | wrIntEnable _ => cases h
  | rdDevid | rdIntEnable | rdIntSource | rdData => cases h

/-- After a row a command is at step 0 only where it has ended. -/
theorem RowTo.stepNo_ne_zero {P : Params} {i : Instr} {s t : State} (h : RowTo P i s t) (hb : t.busy = true) :
    t.stepNo ≠ 0 := by
  cases h with
  | waits hr =>
    intro (h0 : s.stepNo = 0)
    rw [h0] at hr
    cases (rowRequest_zero ..).symm.trans hr
  | ends => cases hb
  | @goes u f k _ hk =>
    rintro (rfl : k = 0)
    exact BitVec.not_lt_zero hk

/-- A run of a table adds listed events: DEVADDR changes only where none has been added yet. -/
theorem runSteps_listed {P : Params} {i : Instr} {n : Nat} {s t : State} (hb : s.busy = true)
    (hc : currentCommand s = .instr i) (h : runSteps P n s = .next t) : Listed P i s t := by
  refine (runSteps_ind (Q := fun u => Listed P i s u ∧ (u.busy = true → u.stepNo = 0 → u.trace = s.trace))
    (fun u v hbu hu hv => ⟨?_, fun hbv h0 => absurd h0 ((tickCommand_rowTo hv).stepNo_ne_zero hbv)⟩)
    hb hc ⟨.of_trace_eq rfl, fun _ _ => rfl⟩ h).1
  obtain ⟨hlisted, hstart⟩ := hu
  obtain ⟨h0, a7, rfl⟩ | hrow := tickCommand_listed hv
  · exact .of_trace_eq (hstart hbu h0)
  · exact hrow.after hlisted

/-! ### Register-level operations -/

theorem writeOp_listed {P : Params} {i : Instr} {r v : Byte} (s : State) (hb : [r, v] ∈ allowedWrites P i) :
    Listed P i s (writeOp r v s) :=
  ((AddsListed.refl P i s).busWrite (go := deliverStatus) hb fun _ _ hv => hv.keeps rfl rfl).listed

theorem readPhase_listed {P : Params} {i : Instr} {k : BitVec 4} {n : Nat} (s : State) (hn : n ∈ allowedReads i) :
    Listed P i s (busRead k n s deliverStatus) :=
  ((AddsListed.refl P i s).busRead (go := deliverStatus) hn fun _ _ hv => hv.keeps rfl rfl).listed

theorem readOp_listed {P : Params} {i : Instr} {r : Byte} {n : Nat} (s : State) (hb : [r] ∈ allowedWrites P i)
    (hn : n ∈ allowedReads i) : Listed P i s (readOp r n s) := by
  refine ((AddsListed.refl P i s).busWrite hb fun ok u hu => ?_).listed
  cases ok with
  | false => exact hu.keeps rfl rfl
  | true => exact hu.busRead hn fun _ _ hv => hv.keeps rfl rfl

/-- The read after a register-level operation's select is one of the operation's. -/
theorem readLength_mem_allowedReads {P : Params} {i : Instr} {r : Byte} (hi : isCommand i = false)
    (h : [r] ∈ allowedWrites P i) : readLength r ∈ allowedReads i := by
  cases i with
  | init _ | read _ | setThresh _ | intQuery | intEnable | intDisable | intHandle => cases hi
  | wrThreshAct _ | wrActInactCtl _ | wrBwRate _ | wrPowerCtl _ | wrIntEnable _ => simp [allowedWrites] at h
  | rdDevid | rdIntEnable | rdIntSource | rdData =>
    obtain rfl : r = _ := by simpa [allowedWrites] using h
    decide

theorem resumeRegisterOp_listed {P : Params} {i : Instr} {r : Request} {s t : State} (hi : isCommand i = false)
    (hr : issues P i s.devaddr r = true) (h : resumeRegisterOp r s = .next t) : Listed P i s t := by
  unfold resumeRegisterOp at h
  split at h <;> cases h
  next a r v => exact writeOp_listed s (by simpa using (Bool.and_eq_true_iff.1 hr).2)
  next a r =>
    have hsel : [r] ∈ allowedWrites P i := by simpa using (Bool.and_eq_true_iff.1 hr).2
    exact readOp_listed s hsel (readLength_mem_allowedReads hi hsel)
  next a n => exact readPhase_listed s (by simpa using (Bool.and_eq_true_iff.1 hr).2)

/-! ### The step -/

/-- Each instruction adds the events listed for it. -/
theorem exec_listed {i : Instr} {s t : State} (h : exec i s = .next t) : Listed params i s t := by
  cases hcmd : isCommand i with
  | true =>
    obtain ⟨w, hw⟩ := exists_encode_command hcmd
    rw [bigStepIsTheStepTable i w s hcmd hw] at h
    exact runSteps_listed (s := accept w s) rfl (inProgress_accept hw s).command h
  | false =>
    cases i with
    | init _ | read _ | setThresh _ | intQuery | intEnable | intDisable | intHandle => cases hcmd
    | wrThreshAct _ | wrActInactCtl _ | wrBwRate _ | wrPowerCtl _ | wrIntEnable _ =>
      cases h; exact writeOp_listed s (by simp [allowedWrites])
    | rdDevid | rdIntEnable | rdIntSource | rdData =>
      cases h; exact readOp_listed s (by simp [allowedWrites]) (by simp [allowedReads])

/-- What runs is the command in progress, or the admitted instruction at the head of what is presented. -/
theorem running_cases {s : State} {i : Instr} (h : running s = some i) :
    (resetPresented s = false ∧ s.busy = true ∧ currentCommand s = .instr i)
      ∨ (s.Idle ∧ ∃ e rest, s.inbox = .issue e :: rest ∧ decode e = .instr i ∧ admitted e s = true) := by
  unfold running at h
  split at h
  · cases h
  next hr =>
  split at h
  next hb =>
    split at h <;> cases h
    next hc => exact .inl ⟨by simpa using hr, hb, hc⟩
  next hb =>
    split at h
    next e rest hq hx =>
      split at h
      next hd =>
        split at h <;> cases h
        next ha => exact .inr ⟨⟨by simpa using hb, hq⟩, e, rest, hx, hd, ha⟩
      next => cases h
    next => cases h

/-- Settles O27: a step that runs an instruction goes on with its table or is its `exec`, and a register-level operation
goes on with its own transactions. -/
theorem onlyListedTransactions : Obligations.OnlyListedTransactions := by
  refine ⟨fun s t i _ hrun h => ?_, fun s t i r hr hb hq hi hiss h => ?_⟩
  · obtain ⟨hr, hb, hc⟩ | ⟨hi, e, rest, hx, hd, ha⟩ := running_cases hrun
    · rw [step_of_busy hr hb] at h
      exact runSteps_listed hb hc h
    · rw [step_of_issue hi hx hd ha] at h
      exact exec_listed (s := takeInput rest s) h
  · rw [step_of_outstanding hr hb hq] at h
    exact resumeRegisterOp_listed hi hiss h

end Sys2Proof.Machine
end

section
/-! PROOF. A machine wired to the reference chip at DEVADDR (95_test_vectors.md section 4): each of the three forms of
transaction succeeds, a select and a read bring the registers from the selected one on (20_memory.md R54, R60), and a
read of `0x30` clears it (R58). -/

namespace Sys2Proof.Machine

/-! ### The chip -/

/-- The chip with its pointer at register `r`. -/
def RefChip.select (c : RefChip) (r : Byte) : RefChip := { c with ptr := r }

/-- The chip after a write of `v` to register `r`, which is not the identity. -/
def RefChip.store (c : RefChip) (r v : Byte) : RefChip := (c.setReg r v).select (r + 1)

@[simp] theorem RefChip.reg_select (c : RefChip) (r a : Byte) : (c.select r).reg a = c.reg a := rfl

theorem RefChip.reg_store {c : RefChip} (h : c.regs.wf = true) (r v a : Byte) :
    (c.store r v).reg a = if a = r then v else c.reg a := RefChip.reg_setReg h r v a

theorem RefChip.store_wf {c : RefChip} (h : c.regs.wf = true) (r v : Byte) : (c.store r v).regs.wf = true :=
  RefChip.setReg_wf r v h

/-! ### The machine -/

/-- The machine's transport is chip `c`, and DEVADDR is the chip's address. -/
structure Wired (s : State) (c : RefChip) : Prop where
  bus : s.bus = .chip c
  devaddr : s.devaddr = busForm c.addr7

namespace Wired

variable {s : State} {c : RefChip} {k : BitVec 4} {r v : Byte} {n : Nat} {go : Bool → State → State}

/-- A select moves the chip's pointer. -/
theorem busWrite_select (h : Wired s c) :
    busWrite k [r] s go = go true (answered (.write s.devaddr [r] true) (.chip (c.select r)) s) := by
  have hr : s.bus.respond (.write s.devaddr [r]) = some (.success c.bytesAtPtr, .chip (c.select r)) := by
    rw [h.bus, h.devaddr, Transport.respond, RefChip.respond, if_pos rfl]; rfl
  rw [busWrite_some hr, Answer.ok_success]

/-- A write stores its value. -/
theorem busWrite_store (h : Wired s c) (hr : r ≠ regDevid) :
    busWrite k [r, v] s go = go true (answered (.write s.devaddr [r, v] true) (.chip (c.store r v)) s) := by
  have hresp : s.bus.respond (.write s.devaddr [r, v]) = some (.success c.bytesAtPtr, .chip (c.store r v)) := by
    rw [h.bus, h.devaddr, Transport.respond, RefChip.respond, if_pos rfl, if_neg hr]; rfl
  rw [busWrite_some hresp, Answer.ok_success]

/-- A read brings the bytes at the chip's pointer. -/
theorem busRead (h : Wired s c) :
    busRead k n s go = go true (fillBuf n c.bytesAtPtr
      (answered (.read s.devaddr n true (Bytes6.firstN n c.bytesAtPtr)) (.chip (c.afterRead n)) s)) := by
  refine busRead_success ?_
  rw [h.bus, h.devaddr, Transport.respond, RefChip.respond, if_pos rfl]; rfl

end Wired

/-- The state after a select of register `r` and a read of `n` bytes, both answered by chip `c`. -/
def afterSelectRead (c : RefChip) (r : Byte) (n : Nat) (s : State) : State :=
  fillBuf n (c.select r).bytesAtPtr
    (answered (.read s.devaddr n true (Bytes6.firstN n (c.select r).bytesAtPtr)) (.chip ((c.select r).afterRead n))
      (answered (.write s.devaddr [r] true) (.chip (c.select r)) s))

namespace Wired

variable {s : State} {c : RefChip} {k₁ k₂ : BitVec 4} {go : Bool → State → State}

theorem accept (h : Wired s c) (w : CmdWord) : Wired (accept w s) c := ⟨h.bus, h.devaddr⟩

/-- The machine is still wired to the chip after it has answered. -/
theorem answered {c' : RefChip} (h : Wired s c) (e : Event) (hc : c'.addr7 = c.addr7) :
    Wired (answered e (.chip c') s) c' := ⟨rfl, hc.symm ▸ h.devaddr⟩

/-- Both phases of a `RegRead` succeed. -/
theorem regRead (h : Wired s c) (r : Byte) (n : Nat) : regRead k₁ k₂ r n s go = go true (afterSelectRead c r n s) := by
  rw [regRead_eq, h.busWrite_select]
  exact (h.answered (.write s.devaddr [r] true) (c' := c.select r) rfl).busRead

/-- So do both phases of READ's burst. -/
theorem readBurst (h : Wired s c) : readBurst s go = go true (afterSelectRead c regData 6 s) := by
  rw [Machine.readBurst, regSelect_eq, h.busWrite_select]
  exact (h.answered (.write s.devaddr [regData] true) (c' := c.select regData) rfl).busRead

end Wired

/-! ### INT_HANDLE -/

/-- INT_HANDLE answers the chip's latched events and leaves a machine ready and wired to the chip with none. -/
theorem exec_intHandle_wired {s : State} {c : RefChip} (h : Wired s c) (hrdy : s.rdy = true) (hwf : c.regs.wf = true) :
    ∃ t c', exec .intHandle s = .next t ∧ t.respEv = decodeEvents (c.reg regIntSource) ∧ t.rdy = true ∧ Wired t c'
      ∧ c'.regs.wf = true ∧ c'.reg regIntSource = 0 := by
  have hrun : intHandleCommand s = complete false (decodeEvents (c.reg regIntSource))
      (afterSelectRead c regIntSource 1 (accept 0x7000 s)) := by
    rw [intHandleCommand, ifReady_of_ready (s := accept 0x7000 s) hrdy, (h.accept _).regRead]
    rfl
  have hclear : ((c.select regIntSource).afterRead 1).reg regIntSource = 0 := by
    rw [RefChip.reg_afterRead (c := c.select regIntSource) hwf, if_pos ⟨rfl, by simp [RefChip.select]⟩]
  exact ⟨_, _, congrArg Host.Outcome.next hrun, rfl, hrdy, ⟨rfl, by rw [RefChip.afterRead_addr7]; exact h.devaddr⟩,
    RefChip.afterRead_wf (c := c.select regIntSource) 1 hwf, hclear⟩

/-- Settles O53: the second INT_HANDLE finds the register the first one cleared. -/
theorem handleReadsAndClearsTheLatch : Obligations.HandleReadsAndClearsTheLatch := by
  intro s c hrdy hbus hwf hdev
  obtain ⟨t, c', ht, hev, hrdy', hwired, hwf', hclear⟩ := exec_intHandle_wired ⟨hbus, hdev⟩ hrdy hwf
  obtain ⟨u, -, hu, hev', -⟩ := exec_intHandle_wired hwired hrdy' hwf'
  refine ⟨t, u, ht, hev, ?_, hu, ?_⟩
  · rw [hwired.bus]; exact congrArg some hclear
  · rw [hev', hclear]; decide

/-! ### READ -/

/-- READ stores its mode at the chip, waits and takes its burst. -/
theorem readCommand_wired {s : State} {c : RefChip} (h : Wired s c) (hrdy : s.rdy = true) (P : Params)
    (mask : BitVec 3) :
    readCommand P mask s = complete true 0 (writeSlots mask (afterSelectRead (c.store regPowerCtl P.measure) regData 6
      (waitSettle P (answered (.write s.devaddr [regPowerCtl, P.measure] true)
        (.chip (c.store regPowerCtl P.measure)) (accept (readWord mask) s))))) := by
  rw [readCommand, ifReady_of_ready (s := accept (readWord mask) s) hrdy, regWrite_eq,
    (h.accept _).busWrite_store (by decide)]
  exact Wired.readBurst ⟨rfl, h.devaddr⟩

/-- Settles O55: the mode write leaves the data registers, and the burst reads them in order. -/
theorem readTakesConsecutiveRegisters : Obligations.ReadTakesConsecutiveRegisters := by
  intro s c hrdy hbus hwf hdev mask
  have hdata : ∀ a : Byte, a ≠ regPowerCtl → (c.store regPowerCtl params.measure).reg a = c.reg a := fun a ha => by
    rw [RefChip.reg_store hwf, if_neg ha]
  have hslot : ∀ hi lo : Byte, hi ≠ regPowerCtl → lo ≠ regPowerCtl →
      sample16 ((c.store regPowerCtl params.measure).reg lo) ((c.store regPowerCtl params.measure).reg hi)
        = c.reg hi ++ c.reg lo := fun hi lo hhi hlo => by rw [hdata hi hhi, hdata lo hlo]; rfl
  refine ⟨_, congrArg Host.Outcome.next (readCommand_wired ⟨hbus, hdev⟩ hrdy params mask), rfl, ?_, ?_, ?_, ?_⟩
  · rw [← hslot 0x33 0x32 (by decide) (by decide)]; rfl
  · rw [← hslot 0x35 0x34 (by decide) (by decide)]; rfl
  · rw [← hslot 0x37 0x36 (by decide) (by decide)]; rfl
  · have hkept := RefChip.reg_afterRead (c := (c.store regPowerCtl params.measure).select regData)
      (RefChip.store_wf hwf _ _) 6 regPowerCtl
    rw [if_neg (by simp), RefChip.reg_select, RefChip.reg_store hwf, if_pos rfl] at hkept
    exact congrArg some hkept

end Sys2Proof.Machine
end

section
/-! PROOF. Decoding and encoding (30_encoding.md R81, R82, R87, R91). A word is read through its bit fields: its bits
under a field's mask are the field put back in its place. So a word that spells a row is the row's value with the
operand field in place, which is the row's encoding, and a word with opcode 1 to 7 and no reserved bit spells a row. -/

namespace Sys2Proof.Machine

/-! ### The command table -/

theorem CmdRow.spells_iff {r : CmdRow} {w : CmdWord} : r.spells w = true ↔ w &&& r.mask = r.value := beq_iff_eq

/-- Two rows that differ in a bit both fix share no word. -/
theorem CmdRow.not_spells_both {a b : CmdRow} (hab : a.value &&& b.mask ≠ b.value &&& a.mask) (w : CmdWord) :
    ¬(a.spells w = true ∧ b.spells w = true) := by
  rintro ⟨ha, hb⟩
  rw [spells_iff] at ha hb
  refine hab ?_
  calc a.value &&& b.mask = w &&& a.mask &&& b.mask := by rw [ha]
    _ = w &&& b.mask &&& a.mask := by rw [BitVec.and_assoc, BitVec.and_comm a.mask, BitVec.and_assoc]
    _ = b.value &&& a.mask := by rw [hb]

/-- Settles O5: any two rows differ in a bit both fix. -/
theorem commandRowsDisjoint : Obligations.CommandRowsDisjoint :=
  have hdiffer : cmdRows.Pairwise fun a b => a.value &&& b.mask ≠ b.value &&& a.mask := by decide
  hdiffer.imp CmdRow.not_spells_both

/-- The rows of the command table, each with the command `w` is if it spells that row (30_encoding.md R81). -/
def commandRows (w : CmdWord) : List (CmdRow × Instr) :=
  [(rowInit, .init (w.extractLsb' 0 7)), (rowRead, .read (w.extractLsb' 8 3)),
    (rowSetThresh, .setThresh (w.extractLsb' 0 8)), (rowIntQuery, .intQuery), (rowIntEnable, .intEnable),
    (rowIntDisable, .intDisable), (rowIntHandle, .intHandle)]

/-- The command of the first row that `w` spells. -/
def decodeRows (w : CmdWord) : List (CmdRow × Instr) → Decoded
  | [] => .rejected .reservedWord
  | (r, i) :: rows => if r.spells w then .instr i else decodeRows w rows

theorem decodeCommand_eq_decodeRows (w : CmdWord) : decodeCommand w = decodeRows w (commandRows w) := rfl

/-- Of disjoint rows, the first that a word spells is the only one. -/
theorem decodeRows_of_mem {w : CmdWord} {r : CmdRow} {i : Instr} (h : r.spells w = true) :
    ∀ {rows : List (CmdRow × Instr)},
      (rows.map Prod.fst).Pairwise (fun a b => ¬(a.spells w = true ∧ b.spells w = true)) → (r, i) ∈ rows →
      decodeRows w rows = .instr i := by
  intro rows hrows hmem
  induction rows with
  | nil => cases hmem
  | cons p rows ih =>
    obtain ⟨hp, hrest⟩ := List.pairwise_cons.1 hrows
    cases hmem with
    | head => exact if_pos h
    | tail _ hmem =>
      have hnot : ¬p.1.spells w = true := fun hs => hp r (List.mem_map_of_mem hmem) ⟨hs, h⟩
      exact (if_neg hnot).trans (ih hrest hmem)

/-- A word spells a row and is decoded as that row's command, or spells none and is rejected. -/
theorem decodeRows_cases (w : CmdWord) (rows : List (CmdRow × Instr)) :
    (∃ r i, (r, i) ∈ rows ∧ r.spells w = true ∧ decodeRows w rows = .instr i)
      ∨ ((∀ r ∈ rows.map Prod.fst, r.spells w = false) ∧ decodeRows w rows = .rejected .reservedWord) := by
  induction rows with
  | nil => exact .inr ⟨by simp, rfl⟩
  | cons p rows ih =>
    cases hs : p.1.spells w with
    | true => exact .inl ⟨p.1, p.2, .head _, hs, if_pos hs⟩
    | false =>
      have hrest : decodeRows w (p :: rows) = decodeRows w rows := if_neg (by simp [hs])
      rw [hrest]
      obtain ⟨r, i, hmem, hr⟩ | ⟨hnone, hrej⟩ := ih
      · exact .inl ⟨r, i, .tail _ hmem, hr⟩
      · exact .inr ⟨List.forall_mem_cons.2 ⟨hs, hnone⟩, hrej⟩

theorem decodeCommand_of_row {w : CmdWord} {r : CmdRow} {i : Instr} (hmem : (r, i) ∈ commandRows w)
    (h : r.spells w = true) : decodeCommand w = .instr i :=
  (decodeCommand_eq_decodeRows w).trans (decodeRows_of_mem h (commandRowsDisjoint.imp fun hab => hab w) hmem)

theorem decodeCommand_cases (w : CmdWord) :
    (∃ r i, (r, i) ∈ commandRows w ∧ r.spells w = true ∧ decodeCommand w = .instr i)
      ∨ ((∀ r ∈ cmdRows, r.spells w = false) ∧ decodeCommand w = .rejected .reservedWord) := by
  rw [decodeCommand_eq_decodeRows]
  exact decodeRows_cases w (commandRows w)

/-- Settles O4: a word of a row has that row's command, since the rows are disjoint. -/
theorem decodingFollowsTheTable : Obligations.DecodingFollowsTheTable := by
  intro w
  have hrow : ∀ r i, (r, i) ∈ commandRows w → w &&& r.mask = r.value → decodeCommand w = .instr i :=
    fun r i hmem h => decodeCommand_of_row hmem (CmdRow.spells_iff.2 h)
  refine ⟨hrow rowInit _ (by simp [commandRows]), hrow rowRead _ (by simp [commandRows]),
    hrow rowSetThresh _ (by simp [commandRows]), hrow rowIntQuery _ (by simp [commandRows]),
    hrow rowIntEnable _ (by simp [commandRows]), hrow rowIntDisable _ (by simp [commandRows]),
    hrow rowIntHandle _ (by simp [commandRows]), fun h1 h2 h3 h4 h5 h6 h7 => ?_⟩
  obtain ⟨r, i, hmem, h, -⟩ | ⟨-, hrej⟩ := decodeCommand_cases w
  · have hr : r ∈ cmdRows := List.mem_map_of_mem (f := Prod.fst) hmem
    rw [CmdRow.spells_iff] at h
    simp only [cmdRows, List.mem_cons, List.not_mem_nil, or_false] at hr
    obtain rfl | rfl | rfl | rfl | rfl | rfl | rfl := hr
    exacts [absurd h h1, absurd h h2, absurd h h3, absurd h h4, absurd h h5, absurd h h6, absurd h h7]
  · exact hrej

/-! ### The fields of a command word -/

/-- The bits of a command word's field of `n` bits from bit `lo` on. -/
def fieldMask (lo n : Nat) : CmdWord := (BitVec.allOnes n).setWidth 16 <<< lo

/-- A word's bits under a field's mask are the field, put back in its place. -/
theorem and_fieldMask (w : CmdWord) (lo n : Nat) :
    w &&& fieldMask lo n = (w.extractLsb' lo n).setWidth 16 <<< lo := by
  refine BitVec.eq_of_getLsbD_eq fun j hj => ?_
  by_cases hlo : j < lo
  · simp [fieldMask, hlo]
  · simp [fieldMask, hlo, hj, Nat.add_sub_cancel' (Nat.le_of_not_lt hlo), Bool.and_comm]

/-- A word of a row whose mask leaves one field open is the row's value with that field in place. -/
theorem CmdRow.word_of_spells {r : CmdRow} {w : CmdWord} {lo n : Nat} (h : r.spells w = true)
    (hopen : ~~~r.mask = fieldMask lo n) : r.value ||| (w.extractLsb' lo n).setWidth 16 <<< lo = w := by
  rw [← and_fieldMask, ← hopen, ← spells_iff.1 h, ← BitVec.and_or_distrib_left, BitVec.or_not_self,
    BitVec.and_allOnes]

/-- A word of a row whose mask leaves nothing open is the row's value. -/
theorem CmdRow.word_of_spells_closed {r : CmdRow} {w : CmdWord} (h : r.spells w = true)
    (hclosed : r.mask = BitVec.allOnes 16) : r.value = w := by
  rw [← spells_iff.1 h, hclosed, BitVec.and_allOnes]

/-- A word spells a row that fixes the opcode, bit 11 and one more field at 0, if it has the row's opcode, and bit 11
and the field are 0. -/
theorem CmdRow.spells_of_fields {r : CmdRow} {w : CmdWord} {op : BitVec 4} {lo n : Nat}
    (hmask : r.mask = fieldMask 12 4 ||| fieldMask 11 1 ||| fieldMask lo n) (hvalue : r.value = op.setWidth 16 <<< 12)
    (hop : CmdWord.opc w = op) (h11 : w.getLsbD 11 = false) (hfield : w.extractLsb' lo n = 0) : r.spells w = true := by
  have hbit : w.extractLsb' 11 1 = 0 := BitVec.eq_of_getLsbD_eq fun j hj => by
    obtain rfl : j = 0 := by omega
    exact (BitVec.getLsbD_extractLsb' ..).trans h11
  rw [spells_iff, hmask, BitVec.and_or_distrib_left, BitVec.and_or_distrib_left, and_fieldMask, and_fieldMask,
    and_fieldMask, hbit, hfield, hvalue, ← hop]
  simp [CmdWord.opc]

/-! ### Decode and encode -/

/-- A word's command is encoded by the word. -/
theorem encode_of_decodeCommand {w : CmdWord} {i : Instr} (h : decodeCommand w = .instr i) : encode i = .command w := by
  obtain ⟨r, j, hmem, hr, hj⟩ | ⟨-, hrej⟩ := decodeCommand_cases w
  · obtain rfl : j = i := Decoded.instr.inj (hj.symm.trans h)
    simp only [commandRows, List.mem_cons, Prod.mk.injEq, List.not_mem_nil, or_false] at hmem
    obtain ⟨rfl, rfl⟩ | ⟨rfl, rfl⟩ | ⟨rfl, rfl⟩ | ⟨rfl, rfl⟩ | ⟨rfl, rfl⟩ | ⟨rfl, rfl⟩ | ⟨rfl, rfl⟩ :=
      hmem
    · have hw := CmdRow.word_of_spells (lo := 0) (n := 7) hr (by decide)
      rw [BitVec.shiftLeft_zero] at hw
      exact congrArg Encoding.command hw
    · exact congrArg Encoding.command (CmdRow.word_of_spells (lo := 8) (n := 3) hr (by decide))
    · have hw := CmdRow.word_of_spells (lo := 0) (n := 8) hr (by decide)
      rw [BitVec.shiftLeft_zero] at hw
      exact congrArg Encoding.command hw
    all_goals exact congrArg Encoding.command (CmdRow.word_of_spells_closed hr rfl)
  · cases hrej.symm.trans h

/-- The bytes' register-level operation is encoded by the bytes. -/
theorem encode_of_decodeRegisterOp {bytes : List Byte} {i : Instr} (h : decodeRegisterOp bytes = .instr i) :
    encode i = .registerOp bytes := by
  unfold decodeRegisterOp at h
  split at h
  case h_1 r v | h_2 r =>
    repeat' split at h
    all_goals cases h
    all_goals subst r; rfl
  case h_3 => cases h

/-- Settles O2: a command is read back from its word, a register-level operation from its bytes. -/
theorem decodeOfEncode : Obligations.DecodeOfEncode := by
  intro i _
  cases i with
  | init _ | read _ | setThresh _ | intQuery | intEnable | intDisable | intHandle => exact decodeCommand_of_encode rfl
  | wrThreshAct _ | wrActInactCtl _ | wrBwRate _ | wrPowerCtl _ | wrIntEnable _ => rfl
  | rdDevid | rdIntEnable | rdIntSource | rdData => rfl

/-- Settles O3: a word that spells a row is the row's value and its operand field, with no other bit. -/
theorem encodeOfDecode : Obligations.EncodeOfDecode := by
  intro e i h
  cases e with
  | command w => exact encode_of_decodeCommand h
  | registerOp bytes => exact encode_of_decodeRegisterOp h

/-! ### Reserved words -/

/-- The encoding of an instruction is well formed. -/
theorem encode_wf (i : Instr) : Encoding.wf (encode i) = true := by
  cases i with
  | init a7 => exact (Laws.EncodingForm.init a7).2
  | read mask => exact (Laws.EncodingForm.read mask).2
  | setThresh t => exact (Laws.EncodingForm.setThresh t).2
  | intQuery | intEnable | intDisable | intHandle => rfl
  | wrThreshAct _ | wrActInactCtl _ | wrBwRate _ | wrPowerCtl _ | wrIntEnable _ => rfl
  | rdDevid | rdIntEnable | rdIntSource | rdData => rfl

theorem not_reserved_of_decodeCommand {w : CmdWord} {i : Instr} (h : decodeCommand w = .instr i) :
    CmdWord.reserved w = false := by
  have hwf := encode_wf i
  rw [encode_of_decodeCommand h] at hwf
  simpa [Encoding.wf] using hwf

/-- A word that is not reserved spells the row of its opcode. -/
theorem exists_row_of_not_reserved {w : CmdWord} (h : CmdWord.reserved w = false) :
    ∃ r ∈ cmdRows, r.spells w = true := by
  have hopcode : ∀ op : BitVec 4, op ≠ 0 → op < 8 →
      op = 1 ∨ op = 2 ∨ op = 3 ∨ op = 4 ∨ op = 5 ∨ op = 6 ∨ op = 7 := by decide
  simp only [CmdWord.reserved, Bool.or_eq_false_iff, beq_eq_false_iff_ne, decide_eq_false_iff_not, BitVec.not_le] at h
  obtain ⟨⟨⟨⟨⟨⟨h0, h8⟩, h11⟩, h1⟩, h2⟩, h3⟩, h4⟩ := h
  have hrow {r : CmdRow} {op : BitVec 4} (lo n : Nat) (hr : r ∈ cmdRows)
      (hop : CmdWord.opc w = op) (hmask : r.mask = fieldMask 12 4 ||| fieldMask 11 1 ||| fieldMask lo n)
      (hvalue : r.value = op.setWidth 16 <<< 12) (hfield : w.extractLsb' lo n = 0) :
      ∃ r ∈ cmdRows, r.spells w = true :=
    ⟨r, hr, CmdRow.spells_of_fields hmask hvalue hop h11 hfield⟩
  obtain hop | hop | hop | hop | hop | hop | hop := hopcode _ h0 h8
  · exact hrow (r := rowInit) 7 4 (by decide) hop (by decide) rfl (by simpa [hop] using h1)
  · exact hrow (r := rowRead) 0 8 (by decide) hop (by decide) rfl (by simpa [hop] using h2)
  · exact hrow (r := rowSetThresh) 8 3 (by decide) hop (by decide) rfl (by simpa [hop] using h3)
  all_goals have hrest : w.extractLsb' 0 11 = 0 := by simpa [hop] using h4
  · exact hrow (r := rowIntQuery) 0 11 (by decide) hop (by decide) rfl hrest
  · exact hrow (r := rowIntEnable) 0 11 (by decide) hop (by decide) rfl hrest
  · exact hrow (r := rowIntDisable) 0 11 (by decide) hop (by decide) rfl hrest
  · exact hrow (r := rowIntHandle) 0 11 (by decide) hop (by decide) rfl hrest

/-- Settles O6: a word of a row is the encoding of a command, none of which is reserved, and any other is reserved. -/
theorem reservedWordsAreTheListed : Obligations.ReservedWordsAreTheListed := by
  intro w
  obtain ⟨r, i, -, -, hi⟩ | ⟨hnone, hrej⟩ := decodeCommand_cases w
  · simp [hi, not_reserved_of_decodeCommand hi]
  · have hres : CmdWord.reserved w = true := by
      by_contra hnot
      obtain ⟨r, hr, hs⟩ := exists_row_of_not_reserved (Bool.not_eq_true _ ▸ hnot)
      cases hs.symm.trans (hnone r hr)
    simp [hrej, hres]

/-- Settles O8: a reserved word is rejected, and a rejected word is accepted and completes. -/
theorem reservedWordCompletes : Obligations.ReservedWordCompletes := by
  intro s w rest hi hx hw
  have hrej : decode (.command w) = .rejected .reservedWord := (reservedWordsAreTheListed w).2 hw
  have hreq : s.req = none := hi.2
  rw [step_of_rejected hi hx hrej]
  simp [rejectedEncoding, complete, accept, takeInput, hreq]

/-- Settles O1: nine of the words are encodings, two are reserved. -/
theorem specWordsDecode : Obligations.SpecWordsDecode := by
  unfold Obligations.SpecWordsDecode
  decide

/-! ### Assembler lines -/

theorem assemble_map_decode {P : Params} {l : AsmLine} {i : Instr} {w : CmdWord} (hl : assemble P l = some w)
    (hi : encode i = .command w) : (assemble P l).map decodeCommand = some (.instr i) := by
  rw [hl, Option.map_some, decodeCommand_of_encode hi]

/-- A line with an operand out of range has no word. -/
theorem assemble_of_not_wf {P : Params} {l : AsmLine} (h : AsmLine.wf l = false) : assemble P l = none := by
  simp [assemble, h]

theorem assemble_init {P : Params} {a : Nat} (h : a ≤ 0x7F) :
    assemble P (.init (some a)) = some (initWord (BitVec.ofNat 7 a)) := by
  have hword : BitVec.ofNat 16 a = (BitVec.ofNat 7 a).setWidth 16 :=
    (BitVec.setWidth_ofNat_of_le_of_lt (by decide) (Nat.lt_succ_of_le h)).symm
  simp [assemble, AsmLine.wf, h, hword, initWord]

theorem assemble_setThresh {P : Params} {t : Nat} (h : t ≤ 0xFF) :
    assemble P (.setThresh t) = some (setThreshWord (BitVec.ofNat 8 t)) := by
  have hword : BitVec.ofNat 16 t = (BitVec.ofNat 8 t).setWidth 16 :=
    (BitVec.setWidth_ofNat_of_le_of_lt (by decide) (Nat.lt_succ_of_le h)).symm
  simp [assemble, AsmLine.wf, h, hword, setThreshWord]

/-- Settles O56: a line in range assembles to the encoding of its command. -/
theorem assembledLinesDecode : Obligations.AssembledLinesDecode := by
  intro P
  refine ⟨fun a h => ?_, ?_, fun slots => ?_, fun t h => ?_, ?_, ?_, ?_, ?_, fun a h => ?_, fun t h => ?_⟩
  · exact assemble_map_decode (assemble_init h) rfl
  · exact assemble_map_decode (w := initWord P.defaultAddr) rfl rfl
  · exact assemble_map_decode (w := readWord (slotMask slots)) rfl rfl
  · exact assemble_map_decode (assemble_setThresh h) rfl
  iterate 4 exact assemble_map_decode rfl rfl
  · exact assemble_of_not_wf (decide_eq_false (Nat.not_le_of_lt h))
  · exact assemble_of_not_wf (decide_eq_false (Nat.not_le_of_lt h))

/-! ### Operand and response forms -/

/-- Settles O29: a shift by one doubles, and seven bits leave room for it. -/
theorem busFormIsTwiceTheAddress : Obligations.BusFormIsTwiceTheAddress := by
  intro a7
  refine ⟨?_, busForm_even a7⟩
  have hlt := a7.isLt
  simp only [busForm, BitVec.toNat_shiftLeft, BitVec.toNat_setWidth]
  omega

/-- Settles O57: RESP_OK stands below the three bits of RESP_EV. -/
theorem responsePacking : Obligations.ResponsePacking := by
  intro s
  have hok : (respWord s).getLsbD 0 = s.respOk := (BitVec.getLsbD_append ..).trans (by simp)
  have hev : ∀ j, (respWord s).getLsbD (j + 1) = s.respEv.getLsbD j := fun j =>
    (BitVec.getLsbD_append ..).trans (by simp)
  exact ⟨hok, hev 0, hev 1, hev 2⟩

end Sys2Proof.Machine
end

section
/-! PROOF. The parts of a response (30_encoding.md R97, 42_init.md R169). A command that waits is busy, so along the big
step only what `complete` writes matters, and where it stands in each command. -/

namespace Sys2Proof.Machine

/-- `Q` holds where the command has completed. -/
def EndsWith (Q : State → Prop) (t : State) : Prop := t.busy = false → Q t

namespace EndsWith

variable {Q : State → Prop} {s : State}

/-- A transaction of a busy machine waits, and so does not complete, or goes on. -/
theorem busWrite {k : BitVec 4} {bytes : List Byte} {go : Bool → State → State} (hs : s.busy = true)
    (hgo : ∀ ok u, Transacted s u → EndsWith Q (go ok u)) : EndsWith Q (busWrite k bytes s go) :=
  Transacted.busWrite_ind (fun h => by cases hs.symm.trans h) fun ok u hu _ => hgo ok u hu

theorem busRead {k : BitVec 4} {n : Nat} {go : Bool → State → State} (hs : s.busy = true)
    (hgo : ∀ ok u, Transacted s u → EndsWith Q (go ok u)) : EndsWith Q (busRead k n s go) :=
  Transacted.busRead_ind (fun h => by cases hs.symm.trans h) fun ok u hu _ => hgo ok u hu

theorem regRead {k₁ k₂ : BitVec 4} {r : Byte} {n : Nat} {go : Bool → State → State} (hs : s.busy = true)
    (hgo : ∀ ok u, u.busy = true → u.rdy = s.rdy → EndsWith Q (go ok u)) : EndsWith Q (regRead k₁ k₂ r n s go) := by
  refine busWrite hs fun ok u hu => ?_
  have hub : u.busy = true := hu.busy.trans hs
  cases ok with
  | false => exact hgo false u hub hu.rdy
  | true => exact busRead hub fun ok v hv => hgo ok v (hv.busy.trans hub) (hv.rdy.trans hu.rdy)

theorem readBurst {go : Bool → State → State} (hs : s.busy = true)
    (hgo : ∀ ok u, EndsWith Q (go ok u)) : EndsWith Q (readBurst s go) := by
  refine busWrite hs fun ok u hu => ?_
  cases ok with
  | false => exact hgo false _
  | true => exact busRead (hu.busy.trans hs) fun ok v _ => hgo ok v

theorem configWrites {fold : Bool → State → State} {ws : List (Byte × Byte)} {k : BitVec 4} {go : State → State}
    (hs : s.busy = true) (hfold : ∀ u ok, (fold ok u).busy = u.busy) (hgo : ∀ u, u.busy = true → EndsWith Q (go u)) :
    EndsWith Q (configWrites k fold ws s go) := by
  induction ws generalizing k s with
  | nil => exact hgo s hs
  | cons w ws ih =>
    rw [configWrites_cons]
    exact busWrite hs fun ok u hu => ih ((hfold u ok).trans (hu.busy.trans hs))

/-- A command that tests RDY gives the zero response at once, or goes on. -/
theorem ifReady {go : State → State} (hno : Q (complete false 0 s)) (hgo : EndsWith Q (go s)) :
    EndsWith Q (ifReady s go) :=
  ifReady_ind (fun _ _ => hno) fun _ => hgo

end EndsWith

/-- INIT completes with RDY, which is 0 until its identity read has matched. -/
theorem initCommand_response (P : Params) (a7 : BitVec 7) (s : State) :
    EndsWith (fun t => t.respEv = 0 ∧ t.respOk = t.rdy) (initCommand P a7 s) := by
  refine .regRead rfl fun ok u hu hrdy => ?_
  split
  · exact .configWrites (s := setReady u) hu foldRdy_busy fun _ _ _ => ⟨rfl, rfl⟩
  · exact fun _ => ⟨rfl, hrdy.symm⟩

theorem readCommand_response (P : Params) (mask : BitVec 3) (s : State) :
    EndsWith (fun t => t.respEv = 0) (readCommand P mask s) := by
  refine .ifReady rfl (.busWrite rfl fun ok u hu => ?_)
  split
  · refine .readBurst (s := waitSettle P u) hu.busy fun ok v => ?_
    split <;> exact fun _ => rfl
  · exact fun _ => rfl

/-- SET_THRESH and INT_DISABLE complete with their one write's status. -/
theorem singleWrite_response (w : CmdWord) (r v : Byte) (s : State) :
    EndsWith (fun t => t.respEv = 0)
      (ifReady (accept w s) fun s => regWrite 1 r [v] s fun ok s => complete ok 0 s) :=
  .ifReady rfl (.busWrite rfl fun _ _ _ _ => rfl)

theorem intQueryCommand_response (s : State) : EndsWith (fun t => t.respEv = 0) (intQueryCommand s) :=
  .ifReady rfl (.regRead rfl fun _ _ _ _ _ => rfl)

theorem intEnableCommand_response (P : Params) (s : State) :
    EndsWith (fun t => t.respEv = 0) (intEnableCommand P s) :=
  .ifReady rfl <| .configWrites (s := setAcc (accept 0x5000 s)) rfl foldAcc_busy fun _ hu =>
    .regRead hu fun _ _ hv _ => .configWrites hv foldAcc_busy fun _ _ _ => rfl

theorem intHandleCommand_response (s : State) : EndsWith (fun t => t.respOk = false) (intHandleCommand s) :=
  .ifReady rfl (.regRead rfl fun _ _ _ _ _ => rfl)

/-- Settles O22: by what each command completes with. -/
theorem responseParts : Obligations.ResponseParts := by
  intro i s t hi h hend
  cases i with
  | init a7 =>
    cases h
    obtain ⟨hev, hok⟩ := initCommand_response params a7 s hend
    exact ⟨nofun, fun _ => hev, fun _ _ => hok⟩
  | read mask => cases h; exact ⟨nofun, fun _ => readCommand_response params mask s hend, nofun⟩
  | setThresh v => cases h; exact ⟨nofun, fun _ => singleWrite_response _ _ v s hend, nofun⟩
  | intQuery => cases h; exact ⟨nofun, fun _ => intQueryCommand_response s hend, nofun⟩
  | intEnable => cases h; exact ⟨nofun, fun _ => intEnableCommand_response params s hend, nofun⟩
  | intDisable => cases h; exact ⟨nofun, fun _ => singleWrite_response _ _ _ s hend, nofun⟩
  | intHandle => cases h; exact ⟨fun _ => intHandleCommand_response s hend, fun hne => absurd rfl hne, nofun⟩
  | wrThreshAct _ | wrActInactCtl _ | wrBwRate _ | wrPowerCtl _ | wrIntEnable _ => cases hi
  | rdDevid | rdIntEnable | rdIntSource | rdData => cases hi

end Sys2Proof.Machine
end

section
/-! PROOF. Waiting for an answer (40_register_access.md R112). A row of a step table has a transaction or not, and what
it does besides does not look at the transport. So a row that waits may be run again, once the transport has answered,
from the state it waits in, and a row that has its answer does the same whatever answers follow. -/

namespace Sys2Proof.Machine

/-! ### Waiting -/

/-- A transaction replaces whatever is outstanding. -/
theorem busWrite_await (k : BitVec 4) (bytes : List Byte) (r : Request) (s : State) (go : Bool → State → State) :
    busWrite k bytes (await s.stepNo r s) go = busWrite k bytes s go := by
  cases h : s.bus.respond (.write s.devaddr bytes) with
  | none => rw [busWrite_none h, busWrite_none (s := await s.stepNo r s) h]; rfl
  | some p => rw [busWrite_some h, busWrite_some (s := await s.stepNo r s) h]; rfl

theorem busRead_await (k : BitVec 4) (n : Nat) (r : Request) (s : State) (go : Bool → State → State) :
    busRead k n (await s.stepNo r s) go = busRead k n s go := by
  cases h : s.bus.respond (.read s.devaddr n) with
  | none => rw [busRead_none h, busRead_none (s := await s.stepNo r s) h]; rfl
  | some p =>
    obtain ⟨a, t⟩ := p
    cases a with
    | success d => rw [busRead_success h, busRead_success (s := await s.stepNo r s) h]; rfl
    | failure => rw [busRead_failure h, busRead_failure (s := await s.stepNo r s) h]; rfl

theorem regRead_await (k₁ k₂ : BitVec 4) (r : Byte) (n : Nat) (q : Request) (s : State)
    (go : Bool → State → State) :
    regRead k₁ k₂ r n (await s.stepNo q s) go = regRead k₁ k₂ r n s go := by
  rw [regRead_eq, busWrite_await]; rfl

/-- `RegRead` waits first for its select. -/
theorem regRead_unanswered {k₁ k₂ : BitVec 4} {r : Byte} {n : Nat} {s : State} {go : Bool → State → State}
    (h : s.bus.respond (.write s.devaddr [r]) = none) :
    regRead k₁ k₂ r n s go = await k₁ (.write s.devaddr [r]) s := by
  rw [regRead_eq, busWrite_none h]

theorem configWrites_unanswered {k : BitVec 4} {fold : Bool → State → State} {w : Byte × Byte}
    {ws : List (Byte × Byte)} {s : State} {go : State → State}
    (h : s.bus.respond (.write s.devaddr [w.1, w.2]) = none) :
    configWrites k fold (w :: ws) s go = await k (.write s.devaddr [w.1, w.2]) s := by
  rw [configWrites_cons, busWrite_none h]

/-- A state that waits for `r` at its step is as it is. -/
theorem await_of_req {s : State} {r : Request} (h : s.req = some r) : await s.stepNo r s = s := by
  rw [await, ← h]

/-! ### Further answers -/

/-- `f` leaves the answers to come as they are and does not look at them. -/
def IgnoresAnswers (f : State → State) : Prop := ∀ more s, f (withAnswers more s) = withAnswers more (f s)

theorem IgnoresAnswers.ite {c : State → Bool} {f g : State → State} (hc : ∀ more s, c (withAnswers more s) = c s)
    (hf : IgnoresAnswers f) (hg : IgnoresAnswers g) : IgnoresAnswers fun s => if c s then f s else g s := by
  intro more s
  beta_reduce
  rw [hc]
  split
  · exact hf more s
  · exact hg more s

/-- A transaction that is answered has the same answer where further answers follow. -/
theorem busWrite_withAnswers {k : BitVec 4} {bytes : List Byte} {s : State} {go : Bool → State → State}
    (hgo : ∀ ok, IgnoresAnswers (go ok)) (h : s.bus.respond (.write s.devaddr bytes) ≠ none) (more : List Answer) :
    busWrite k bytes (withAnswers more s) go = withAnswers more (busWrite k bytes s go) := by
  obtain ⟨⟨a, t⟩, h⟩ := Option.ne_none_iff_exists'.1 h
  rw [busWrite_some h, busWrite_some (s := withAnswers more s) (Transport.respond_extend h more)]
  exact hgo a.ok more (answered (.write s.devaddr bytes a.ok) t s)

theorem busRead_withAnswers {k : BitVec 4} {n : Nat} {s : State} {go : Bool → State → State}
    (hgo : ∀ ok, IgnoresAnswers (go ok)) (h : s.bus.respond (.read s.devaddr n) ≠ none) (more : List Answer) :
    busRead k n (withAnswers more s) go = withAnswers more (busRead k n s go) := by
  obtain ⟨⟨a, t⟩, h⟩ := Option.ne_none_iff_exists'.1 h
  cases a with
  | success d =>
    rw [busRead_success h, busRead_success (s := withAnswers more s) (Transport.respond_extend h more)]
    exact hgo true more (fillBuf n d (answered (.read s.devaddr n true (Bytes6.firstN n d)) t s))
  | failure =>
    rw [busRead_failure h, busRead_failure (s := withAnswers more s) (Transport.respond_extend h more)]
    exact hgo false more (scrambleBuf (answered (.read s.devaddr n false []) t s))

/-! ### What stands at a step of a table -/

/-- What command `i`'s table has at step `k`: no row, a row without a transaction, a write, or a read. -/
inductive RowForm (P : Params) (i : Instr) (k : BitVec 4) : Prop where
  | absent (ht : ∀ s, tickCommand P i (goto k s) = none) (hr : ∀ dev, rowRequest P i k.toNat dev = none)
  | store {f : State → State} (ht : ∀ s, tickCommand P i (goto k s) = some (f (goto k s)))
      (hr : ∀ dev, rowRequest P i k.toNat dev = none) (hf : IgnoresAnswers f)
  | write {bytes : List Byte} {go : Bool → State → State}
      (ht : ∀ s, tickCommand P i (goto k s) = some (busWrite k bytes (goto k s) go))
      (hr : ∀ dev, rowRequest P i k.toNat dev = some (.write dev bytes)) (hgo : ∀ ok, IgnoresAnswers (go ok))
  | read {n : Nat} {go : Bool → State → State}
      (ht : ∀ s, tickCommand P i (goto k s) = some (busRead k n (goto k s) go))
      (hr : ∀ dev, rowRequest P i k.toNat dev = some (.read dev n)) (hgo : ∀ ok, IgnoresAnswers (go ok))

namespace RowForm

variable {P : Params} {i : Instr} {k : BitVec 4}

/-- The row that tests RDY. -/
theorem ifReady {f : State → State} (ht : ∀ s, tickCommand P i (goto k s) = some (Machine.ifReady (goto k s) f))
    (hr : ∀ dev, rowRequest P i k.toNat dev = none) (hf : IgnoresAnswers f) : RowForm P i k :=
  .store ht hr (.ite (c := State.rdy) (fun _ _ => rfl) hf fun _ _ => rfl)

/-- A row with a write whose failure ends the command. -/
theorem writeOrStop {bytes : List Byte}
    (ht : ∀ s, tickCommand P i (goto k s) = some (rowWriteOrStop k bytes (goto k s)))
    (hr : ∀ dev, rowRequest P i k.toNat dev = some (.write dev bytes)) : RowForm P i k :=
  .write ht hr fun ok => by cases ok <;> exact fun _ _ => rfl

/-- A row with a configuration write. -/
theorem config {fold : Bool → State → State} {w : Byte × Byte}
    (ht : ∀ s, tickCommand P i (goto k s) = some (rowConfig k fold w (goto k s)))
    (hr : ∀ dev, rowRequest P i k.toNat dev = some (.write dev [w.1, w.2]))
    (hfold : ∀ ok, IgnoresAnswers (fold ok)) : RowForm P i k :=
  .write ht hr fun ok more s => congrArg (goto (k + 1)) (hfold ok more s)

end RowForm

theorem rowForm_init (P : Params) (a7 : BitVec 7) (k : BitVec 4) : RowForm P (.init a7) k := by
  match hk : k.toNat with
  | 0 =>
    obtain rfl : k = 0 := BitVec.eq_of_toNat_eq hk
    exact .store (f := fun s => goto 1 (beginInit a7 s)) (fun _ => rfl) (fun _ => rfl) fun _ _ => rfl
  | 1 => obtain rfl : k = 1 := BitVec.eq_of_toNat_eq hk; exact .writeOrStop (fun _ => rfl) fun _ => rfl
  | 2 =>
    obtain rfl : k = 2 := BitVec.eq_of_toNat_eq hk
    exact .read (fun _ => rfl) (fun _ => rfl) fun ok =>
      .ite (c := fun s => ok && idMatch s.buf.b0) (fun _ _ => rfl) (fun _ _ => rfl) fun _ _ => rfl
  | j + 3 =>
    obtain rfl : k = BitVec.ofNat 4 (3 + j) := BitVec.eq_of_toNat_eq (by rw [BitVec.toNat_ofNat]; omega)
    cases hw : (configSequence P)[j]? with
    | some w =>
      exact .config (tickInit_config hw) (fun dev => by simp [rowRequest, hk, hw]) fun _ _ _ => rfl
    | none =>
      have hj : 6 ≤ j := List.getElem?_eq_none_iff.1 hw
      obtain rfl | hj := hj.eq_or_lt
      · exact .store (f := fun s => complete s.rdy 0 s) (fun _ => rfl) (fun _ => rfl) fun _ _ => rfl
      · obtain ⟨n, rfl⟩ := Nat.exists_eq_add_of_le' hj
        exact .absent (fun s => by simp [tickCommand, tickInit, hk]) fun dev => by simp [rowRequest, hk, hw]

theorem rowForm_read (P : Params) (mask : BitVec 3) (k : BitVec 4) : RowForm P (.read mask) k := by
  match hk : k.toNat with
  | 0 => obtain rfl : k = 0 := BitVec.eq_of_toNat_eq hk; exact .ifReady (fun _ => rfl) (fun _ => rfl) fun _ _ => rfl
  | 1 => obtain rfl : k = 1 := BitVec.eq_of_toNat_eq hk; exact .writeOrStop (fun _ => rfl) fun _ => rfl
  | 2 =>
    obtain rfl : k = 2 := BitVec.eq_of_toNat_eq hk
    exact .store (f := fun s => goto 3 (waitSettle P s)) (fun _ => rfl) (fun _ => rfl) fun _ _ => rfl
  | 3 =>
    obtain rfl : k = 3 := BitVec.eq_of_toNat_eq hk
    exact .write (fun _ => rfl) (fun _ => rfl) fun ok => by cases ok <;> exact fun _ _ => rfl
  | 4 =>
    obtain rfl : k = 4 := BitVec.eq_of_toNat_eq hk
    exact .read (fun _ => rfl) (fun _ => rfl) fun ok => by cases ok <;> exact fun _ _ => rfl
  | 5 =>
    obtain rfl : k = 5 := BitVec.eq_of_toNat_eq hk
    exact .store (f := fun s => complete true 0 (writeSlots mask s)) (fun _ => rfl) (fun _ => rfl) fun _ _ => rfl
  | n + 6 => exact .absent (fun s => by simp [tickCommand, tickRead, hk]) fun dev => by simp [rowRequest, hk]

theorem rowForm_intEnable (P : Params) (k : BitVec 4) : RowForm P .intEnable k := by
  obtain ⟨j, hj, rfl⟩ : ∃ j < 16, k = BitVec.ofNat 4 j := ⟨k.toNat, k.isLt, by simp⟩
  have hk : (BitVec.ofNat 4 j).toNat = j := by rw [BitVec.toNat_ofNat]; omega
  by_cases h0 : j = 0
  · subst h0; exact .ifReady (fun _ => rfl) (fun _ => rfl) fun _ _ => rfl
  by_cases hselect : j = P.flushPos.toNat + 1
  · subst hselect
    exact .write (tickIntEnable_select P) (fun dev => by simp [rowRequest, hk]) fun _ _ _ => rfl
  by_cases hread : j = P.flushPos.toNat + 2
  · subst hread
    exact .read (tickIntEnable_read P) (fun dev => by simp [rowRequest, hk]) fun _ _ _ => rfl
  have hp := flushPos_toNat_le P.flushPos
  have hrequest : ∀ dev, rowRequest P .intEnable (BitVec.ofNat 4 j).toNat dev
      = (configSequence P)[if j ≤ P.flushPos.toNat then j - 1 else j - 3]?.map fun w => .write dev [w.1, w.2] :=
    fun dev => by simp [rowRequest, hk, h0, hselect, hread]
  cases hw : (configSequence P)[if j ≤ P.flushPos.toNat then j - 1 else j - 3]? with
  | some w =>
    obtain ⟨hlt : _ < 6, -⟩ := List.getElem?_eq_some_iff.1 hw
    have h8 : j ≤ 8 := by split at hlt <;> omega
    exact .config (tickIntEnable_config (Nat.pos_of_ne_zero h0) h8 hselect hread hw)
      (fun dev => by rw [hrequest, hw]; rfl) fun _ _ _ => rfl
  | none =>
    have hge : 6 ≤ _ := List.getElem?_eq_none_iff.1 hw
    have h9 : 9 ≤ j := by split at hge <;> omega
    have hr : ∀ dev, rowRequest P .intEnable (BitVec.ofNat 4 j).toNat dev = none := fun dev => by
      rw [hrequest, hw]; rfl
    obtain rfl | h9 := h9.eq_or_lt
    · exact .store (f := fun s => complete s.acc 0 s) (fun _ => rfl) hr fun _ _ => rfl
    · exact .absent (fun s => by simp [tickCommand, tickIntEnable, hk, h0, h9.ne', hselect, hread, hw]) hr

/-- What stands at each step of each table. -/
theorem rowForm (P : Params) (i : Instr) (k : BitVec 4) : RowForm P i k := by
  cases i with
  | init a7 => exact rowForm_init P a7 k
  | read mask => exact rowForm_read P mask k
  | intEnable => exact rowForm_intEnable P k
  | setThresh | intDisable =>
    match hk : k.toNat with
    | 0 => obtain rfl : k = 0 := BitVec.eq_of_toNat_eq hk; exact .ifReady (fun _ => rfl) (fun _ => rfl) fun _ _ => rfl
    | 1 =>
      obtain rfl : k = 1 := BitVec.eq_of_toNat_eq hk
      exact .write (fun _ => rfl) (fun _ => rfl) fun _ _ _ => rfl
    | n + 2 =>
      exact .absent (fun s => by simp [tickCommand, tickSetThresh, tickIntDisable, hk])
        fun dev => by simp [rowRequest, hk]
  | intQuery | intHandle =>
    match hk : k.toNat with
    | 0 => obtain rfl : k = 0 := BitVec.eq_of_toNat_eq hk; exact .ifReady (fun _ => rfl) (fun _ => rfl) fun _ _ => rfl
    | 1 => obtain rfl : k = 1 := BitVec.eq_of_toNat_eq hk; exact .writeOrStop (fun _ => rfl) fun _ => rfl
    | 2 =>
      obtain rfl : k = 2 := BitVec.eq_of_toNat_eq hk
      exact .read (fun _ => rfl) (fun _ => rfl) fun _ _ _ => rfl
    | n + 3 =>
      exact .absent (fun s => by simp [tickCommand, tickIntQuery, tickIntHandle, hk])
        fun dev => by simp [rowRequest, hk]
  | wrThreshAct _ | wrActInactCtl _ | wrBwRate _ | wrPowerCtl _ | wrIntEnable _ =>
    exact .absent (fun _ => rfl) fun _ => rfl
  | rdDevid | rdIntEnable | rdIntSource | rdData => exact .absent (fun _ => rfl) fun _ => rfl

/-! ### A row that waits, and one that has its answer -/

section Row

variable {P : Params} {i : Instr} {s t : State} {r : Request}

/-- A row with a transaction waits at it until it is answered. -/
theorem tickCommand_unanswered (hrow : rowRequest P i s.stepNo.toNat s.devaddr = some r)
    (h : s.bus.respond r = none) : tickCommand P i s = some (await s.stepNo r s) := by
  cases rowForm P i s.stepNo with
  | absent _ hr | store _ hr => cases hrow.symm.trans (hr s.devaddr)
  | write ht hr =>
    cases hrow.symm.trans (hr s.devaddr)
    exact (ht s).trans (congrArg some (busWrite_none (s := goto s.stepNo s) h))
  | read ht hr =>
    cases hrow.symm.trans (hr s.devaddr)
    exact (ht s).trans (congrArg some (busRead_none (s := goto s.stepNo s) h))

/-- A row with a transaction is the same where it has waited at it. -/
theorem tickCommand_await (hrow : rowRequest P i s.stepNo.toNat s.devaddr = some r) :
    tickCommand P i (await s.stepNo r s) = tickCommand P i s := by
  cases rowForm P i s.stepNo with
  | absent _ hr | store _ hr => cases hrow.symm.trans (hr s.devaddr)
  | write ht =>
    exact (ht (await s.stepNo r s)).trans ((congrArg some (busWrite_await _ _ r s _)).trans (ht s).symm)
  | read ht =>
    exact (ht (await s.stepNo r s)).trans ((congrArg some (busRead_await _ _ r s _)).trans (ht s).symm)

/-- A row that does not wait does the same whatever answers follow. -/
theorem tickCommand_withAnswers (h : tickCommand P i s = some t) (hreq : t.req = none) (more : List Answer) :
    tickCommand P i (withAnswers more s) = some (withAnswers more t) := by
  cases rowForm P i s.stepNo with
  | absent ht => cases h.symm.trans (ht s)
  | store ht _ hf =>
    cases h.symm.trans (ht s)
    exact (ht (withAnswers more s)).trans (congrArg some (hf more s))
  | @write bytes go ht _ hgo =>
    cases h.symm.trans (ht s)
    have hanswered : s.bus.respond (.write s.devaddr bytes) ≠ none := fun hnone => by
      rw [busWrite_none (s := goto s.stepNo s) hnone] at hreq; cases hreq
    exact (ht (withAnswers more s)).trans (congrArg some (busWrite_withAnswers hgo hanswered more))
  | @read n go ht _ hgo =>
    cases h.symm.trans (ht s)
    have hanswered : s.bus.respond (.read s.devaddr n) ≠ none := fun hnone => by
      rw [busRead_none (s := goto s.stepNo s) hnone] at hreq; cases hreq
    exact (ht (withAnswers more s)).trans (congrArg some (busRead_withAnswers hgo hanswered more))

end Row

/-! ### The run of a command -/

/-- A run has the same outcome for every number of rows that takes it past step 9. -/
theorem runSteps_of_enough {P : Params} : ∀ {n m : Nat} {s : State}, s.stepNo ≤ 9 → 10 ≤ n + s.stepNo.toNat →
    10 ≤ m + s.stepNo.toNat → runSteps P n s = runSteps P m s := by
  intro n
  induction n with
  | zero => intro m s h9 hn _; bv_omega
  | succ n ih =>
    intro m s h9 hn hm
    obtain ⟨m, rfl⟩ : ∃ m', m = m' + 1 := Nat.exists_eq_add_one.2 (by bv_omega)
    cases hc : currentCommand s with
    | rejected _ => simp [runSteps, tick, hc]
    | instr i =>
      cases ht : tickCommand P i s with
      | none => simp [runSteps, tick, hc, ht]
      | some t =>
        rw [runSteps_row hc ht, runSteps_row hc ht]
        cases tickCommand_rowTo ht with
        | waits => simp
        | ends => rfl
        | @goes u f k _ hk hk9 =>
          have hn' : 10 ≤ n + k.toNat := by bv_omega
          have hm' : 10 ≤ m + k.toNat := by bv_omega
          rw [ih (s := goto k (f u)) hk9 hn' hm']

/-- Runs that start with the same row are the same. -/
theorem runSteps_of_row_eq {P : Params} {i : Instr} {n : Nat} {s t : State} (hs : currentCommand s = .instr i)
    (ht : currentCommand t = .instr i) (h : tickCommand P i s = tickCommand P i t) :
    runSteps P (n + 1) s = runSteps P (n + 1) t := by
  simp [runSteps, tick, hs, ht, h]

theorem InProgress.withAnswers {i : Instr} {s : State} (h : InProgress i s) (more : List Answer) :
    InProgress i (withAnswers more s) := ⟨h.busy, h.req, h.command⟩

/-- A row that goes on, then the rest of the run. -/
theorem InProgress.runSteps_row {P : Params} {i : Instr} {n : Nat} {s u : State} (hs : InProgress i s)
    (hu : InProgress i u) (h : tickCommand P i s = some u) : runSteps P (n + 1) s = runSteps P n u :=
  (Machine.runSteps_row hs.command h).trans (hu.afterRow P n)

/-- A run that ends in a state that waits is still busy, and goes on from there as the run with all answers does. -/
theorem runSteps_resumed {P : Params} {i : Instr} (more : List Answer) : ∀ {n : Nat} {s t : State}, InProgress i s →
    s.stepNo ≤ 9 → 10 ≤ n + s.stepNo.toNat → runSteps P n s = .next t → ¬t.Idle →
    t.busy = true ∧ runSteps P 10 (withAnswers more t) = runSteps P n (withAnswers more s) := by
  intro n
  induction n with
  | zero => intro s t _ h9 hn; bv_omega
  | succ n ih =>
    intro s t hs h9 hn h hwait
    cases hu : tickCommand P i s with
    | none => simp [runSteps, tick, hs.command, hu] at h
    | some u =>
      cases tickCommand_rowTo hu with
      | @waits r hrow =>
        obtain rfl : await s.stepNo r s = t := by simpa [runSteps_row hs.command hu] using h
        rw [runSteps_of_enough (s := withAnswers more s) h9 hn (Nat.le_add_right 10 _)]
        exact ⟨hs.busy,
          runSteps_of_row_eq (i := i) hs.command hs.command (tickCommand_await (s := withAnswers more s) hrow)⟩
      | @ends v f _ _ _ hv hreq hf =>
        rw [runSteps_row hs.command hu] at h
        cases h
        exact absurd ⟨rfl, hf.req.trans (hreq (.inl hs.req))⟩ hwait
      | @goes v f k _ hk hk9 hv hreq hf =>
        have hgoes : InProgress i (goto k (f v)) := ⟨hf.busy.trans (hv.busy.trans hs.busy),
          hf.req.trans (hreq (.inl hs.req)), hf.currentCommand.trans (hv.currentCommand.trans hs.command)⟩
        have hn' : 10 ≤ n + k.toNat := by bv_omega
        rw [hs.runSteps_row hgoes hu] at h
        rw [(hs.withAnswers more).runSteps_row (hgoes.withAnswers more) (tickCommand_withAnswers hu hgoes.req more)]
        exact ih hgoes hk9 hn' h hwait

/-! ### The step that resumes -/

/-- Where `t` waits, the step with the further answers `more` answers `whole`. -/
def Resumes (more : List Answer) (whole : Result) (t : State) : Prop := ¬t.Idle → step (withAnswers more t) = whole

theorem Resumes.of_idle {more : List Answer} {whole : Result} {t : State} (h : t.Idle) : Resumes more whole t :=
  fun hwait => absurd h hwait

theorem resetPresented_congr {s t : State} (h : t.inbox = s.inbox) : resetPresented t = resetPresented s := by
  unfold resetPresented; rw [h]

section Step

variable {s : State} (hr : resetPresented s = false) (more : List Answer)

include hr

/-- A command goes on with its table. -/
theorem resumes_of_isCommand {i : Instr} {t : State} (hi : isCommand i = true) (h : exec i s = .next t) :
    Resumes more (exec i (withAnswers more s)) t := by
  intro hwait
  obtain ⟨w, hw⟩ := exists_encode_command hi
  have hinbox := (exec_keepsOthers hi h).2
  rw [bigStepIsTheStepTable i w s hi hw] at h
  obtain ⟨hbusy, hrest⟩ :=
    runSteps_resumed more (inProgress_accept hw s) (Nat.zero_le 9) (Nat.le_add_right 10 _) h hwait
  rw [step_of_busy (s := withAnswers more t) ((resetPresented_congr hinbox).trans hr) hbusy,
    bigStepIsTheStepTable i w _ hi hw]
  exact hrest

variable (hi : s.Idle)

include hi

/-- A register write waits at its one transaction. -/
theorem resumes_writeOp (r v : Byte) :
    Resumes more (.next (writeOp r v (withAnswers more s))) (writeOp r v s) := by
  refine busWrite_ind (fun _ _ => ?_) fun _ _ _ => .of_idle ⟨hi.1, rfl⟩
  rw [step_of_outstanding (s := withAnswers more (await ..)) hr hi.1 rfl]
  exact congrArg Host.Outcome.next (busWrite_await _ _ _ (withAnswers more s) _)

/-- A register read waits at its select, or at its read phase after the select's answer. -/
theorem resumes_readOp (r : Byte) :
    Resumes more (.next (readOp r (readLength r) (withAnswers more s))) (readOp r (readLength r) s) := by
  refine regRead_ind (fun _ _ => ?_) (fun _ _ => .of_idle ⟨hi.1, rfl⟩) fun d b hsel => ?_
  · rw [step_of_outstanding (s := withAnswers more (await ..)) hr hi.1 rfl]
    exact congrArg Host.Outcome.next (regRead_await _ _ _ _ _ (withAnswers more s) _)
  · have hread : readOp r (readLength r) (withAnswers more s) = busRead s.stepNo (readLength r)
        (withAnswers more (answered (.write s.devaddr [r] true) b s)) deliverStatus :=
      regRead_selected (s := withAnswers more s) (Transport.respond_extend hsel more)
    refine busRead_ind (fun _ _ => ?_) (fun _ _ _ => .of_idle ⟨hi.1, rfl⟩) fun _ _ => .of_idle ⟨hi.1, rfl⟩
    rw [step_of_outstanding (s := withAnswers more (await _ _ (answered ..))) hr hi.1 rfl, hread]
    exact congrArg Host.Outcome.next (busRead_await _ _ _ (withAnswers more (answered _ b s)) _)

end Step

/-- Settles O58: a command goes on with its table, a register-level operation with the transaction it waits at. -/
theorem resumedRunIsTheWholeRun : Obligations.ResumedRunIsTheWholeRun := by
  intro i s t more hi hr h hwait
  suffices hresumes : Resumes more (exec i (withAnswers more s)) t from
    hresumes fun ⟨hb, hq⟩ => by simp [hb, hq] at hwait
  cases i with
  | init _ | read _ | setThresh _ | intQuery | intEnable | intDisable | intHandle =>
    exact resumes_of_isCommand hr more rfl h
  | wrThreshAct v | wrActInactCtl v | wrBwRate v | wrPowerCtl v | wrIntEnable v =>
    cases h; exact resumes_writeOp hr more hi _ v
  | rdDevid => cases h; exact resumes_readOp hr more hi regDevid
  | rdIntEnable => cases h; exact resumes_readOp hr more hi regIntEnable
  | rdIntSource => cases h; exact resumes_readOp hr more hi regIntSource
  | rdData => cases h; exact resumes_readOp hr more hi regData

/-- Settles O9: the row or the operation presents again the transaction that is outstanding. -/
theorem waitingChangesNothing : Obligations.WaitingChangesNothing := by
  refine ⟨fun s i r hr hb hc hq hrow hnone => ?_, fun s r hr hb hq halone hnone => ?_⟩
  · have htick := tickCommand_unanswered hrow hnone
    rw [await_of_req hq] at htick
    rw [step_of_busy hr hb, resumeCommand, runSteps_row hc htick, hq]
    simp
  · rw [step_of_outstanding hr hb hq]
    cases r with
    | write a bytes =>
      obtain ⟨rfl, hwf⟩ : a = s.devaddr ∧ Encoding.wf (.registerOp bytes) = true := by
        simpa [standsAlone] using halone
      match bytes, hwf with
      | [_], _ => exact congrArg Host.Outcome.next ((regRead_unanswered hnone).trans (await_of_req hq))
      | [_, _], _ => exact congrArg Host.Outcome.next ((busWrite_none hnone).trans (await_of_req hq))
    | read a n =>
      obtain ⟨rfl, -⟩ : a = s.devaddr ∧ _ := by simpa [standsAlone] using halone
      exact congrArg Host.Outcome.next ((busRead_none hnone).trans (await_of_req hq))

/-- A command that waits at step 1 right after its acceptance has traced nothing and handed nothing back. -/
theorem exists_waiting_of_exec {i : Instr} {w : CmdWord} {s u : State} {r : Request} (hw : encode i = .command w)
    (hu : u = accept w s ∨ u = setAcc (accept w s)) (h : exec i s = .next (await 1 r u)) :
    ∃ t, exec i s = .next t ∧ t.busy = true ∧ t.stepNo = 1 ∧ t.req = some r ∧ t.trace = s.trace
      ∧ t.delivered = s.delivered ∧ currentCommand t = .instr i := by
  have hcommand := (inProgress_accept hw s).command
  obtain rfl | rfl := hu <;> exact ⟨_, h, rfl, rfl, rfl, rfl, rfl, hcommand⟩

/-- Settles O10: the first transaction of each command, and both phases of a lone operation. -/
theorem commandsWaitForTheFirstAnswer : Obligations.CommandsWaitForTheFirstAnswer := by
  refine ⟨fun i w s r hi hw hr hrow hnone => ?_, fun a7 s hnone => ?_, fun i bytes s hi hnone => ?_,
    fun i r n s d b hi hn hsel hnone => ?_⟩
  · have hready : ∀ go, ifReady (accept w s) go = go (accept w s) := fun go => ifReady_of_ready (s := accept w s) hr
    cases i with
    | read _ | setThresh _ | intDisable =>
      cases hw; cases hrow
      exact exists_waiting_of_exec rfl (.inl rfl) (congrArg Host.Outcome.next ((hready _).trans (busWrite_none hnone)))
    | intQuery | intHandle =>
      cases hw; cases hrow
      exact exists_waiting_of_exec rfl (.inl rfl)
        (congrArg Host.Outcome.next ((hready _).trans (regRead_unanswered hnone)))
    | intEnable =>
      cases hw; cases hrow
      exact exists_waiting_of_exec rfl (.inr rfl) (congrArg Host.Outcome.next
        ((hready _).trans (configWrites_unanswered (s := setAcc (accept 0x5000 s)) hnone)))
    | init _ => cases hi
    | wrThreshAct _ | wrActInactCtl _ | wrBwRate _ | wrPowerCtl _ | wrIntEnable _ => cases hi
    | rdDevid | rdIntEnable | rdIntSource | rdData => cases hi
  · have hcommand : currentCommand (accept (initWord a7) s) = .instr (.init a7) := (inProgress_accept rfl s).command
    exact ⟨_, congrArg Host.Outcome.next (regRead_unanswered hnone), rfl, rfl, rfl, rfl, rfl, hcommand, rfl, rfl⟩
  · cases i with
    | init _ | read _ | setThresh _ | intQuery | intEnable | intDisable | intHandle => cases hi
    | wrThreshAct _ | wrActInactCtl _ | wrBwRate _ | wrPowerCtl _ | wrIntEnable _ =>
      cases hi; exact congrArg Host.Outcome.next (busWrite_none hnone)
    | rdDevid | rdIntEnable | rdIntSource | rdData =>
      cases hi; exact congrArg Host.Outcome.next (regRead_unanswered hnone)
  · have hwait : readOp r n s = { s with
        req := some (.read s.devaddr n), bus := b, trace := s.trace ++ [.write s.devaddr [r] true] } :=
      (regRead_selected hsel).trans (busRead_none (s := answered (.write s.devaddr [r] true) b s) hnone)
    cases i with
    | init _ | read _ | setThresh _ | intQuery | intEnable | intDisable | intHandle => cases hi
    | wrThreshAct _ | wrActInactCtl _ | wrBwRate _ | wrPowerCtl _ | wrIntEnable _ => cases hi
    | rdDevid | rdIntEnable | rdIntSource | rdData =>
      cases hi
      obtain rfl := List.mem_singleton.1 hn
      exact congrArg Host.Outcome.next hwait

end Sys2Proof.Machine
end

section
/-! PROOF. `RegRead`'s two phases (40_register_access.md R115, R116) and the register-level operations on their own
(R113, R118, R120 to R128), each one write, or `RegRead` with its status handed back. -/

namespace Sys2Proof.Machine

/-! ### Results -/

/-- Settles O51: `RegRead` is a select, and a read where the select succeeded. -/
theorem regReadIsTwoPhases : Obligations.RegReadIsTwoPhases := by
  intro k₁ k₂ r n s go
  refine ⟨fun b hsel => regRead_select_failed hsel, fun d0 b h => ?_, fun d0 d b h => ?_⟩
  all_goals
    simp only [Transport.replies_cons_cons, Transport.replies_nil, Option.some.injEq, Prod.mk.injEq, true_and] at h
    obtain ⟨b₁, hsel, b₂, hread, rfl⟩ := h
    rw [regRead_selected hsel]
  · rw [busRead_failure (s := answered (.write s.devaddr [r] true) b₁ s) hread]
    simp [scrambleBuf, answered]
  · rw [busRead_success (s := answered (.write s.devaddr [r] true) b₁ s) hread]
    simp [fillBuf, answered]

/-- Settles O47: one write transaction. -/
theorem registerWriteResults : Obligations.RegisterWriteResults := by
  intro i r v s a b hi h
  obtain ⟨rfl, rfl⟩ | ⟨rfl, rfl⟩ | ⟨rfl, rfl⟩ | ⟨rfl, rfl⟩ | ⟨rfl, rfl⟩ := hi <;>
    exact congrArg Host.Outcome.next (busWrite_some h)

/-- Settles O48: both phases of `RegRead` succeed. -/
theorem registerReadResults : Obligations.RegisterReadResults := by
  refine ⟨fun i r s d0 d b hi h => ?_, fun s d0 d b h => ?_⟩
  · obtain ⟨-, -, hok⟩ := regReadIsTwoPhases s.stepNo s.stepNo r 1 s deliverStatus
    have hexec : exec i s = .next (readOp r 1 s) := by
      obtain ⟨rfl, rfl⟩ | ⟨rfl, rfl⟩ | ⟨rfl, rfl⟩ := hi <;> rfl
    exact hexec.trans (congrArg Host.Outcome.next (hok d0 d b h))
  · obtain ⟨-, -, hok⟩ := regReadIsTwoPhases s.stepNo s.stepNo 0x32 6 s deliverStatus
    exact congrArg Host.Outcome.next (hok d0 d b h)

/-- Settles O49: `RegRead` fails in its select or in its read. -/
theorem registerReadFailures : Obligations.RegisterReadFailures := by
  intro i r n s hi
  obtain ⟨hsel, hread, -⟩ := regReadIsTwoPhases s.stepNo s.stepNo r n s deliverStatus
  have hexec : exec i s = .next (readOp r n s) := by
    obtain ⟨rfl, rfl, rfl⟩ | ⟨rfl, rfl, rfl⟩ | ⟨rfl, rfl, rfl⟩ | ⟨rfl, rfl, rfl⟩ := hi <;> rfl
  rw [hexec]
  exact ⟨fun b h => congrArg Host.Outcome.next (hsel b h), fun d0 b h => congrArg Host.Outcome.next (hread d0 b h)⟩

/-! ### The frame -/

/-- A register-level operation changes BUF, the transport, the trace, the port, the draws and what is handed back. -/
theorem RegisterOpTo.exists_update {s t : State} (h : RegisterOpTo s t) : ∃ buf bus trace req draws delivered,
    t = { s with
      buf := buf, bus := bus, trace := trace, req := req, draws := draws, delivered := delivered } := by
  cases h with
  | waits hu | ends hu => obtain ⟨_, _, _, _, _, -, rfl⟩ := hu; exact ⟨_, _, _, _, _, _, rfl⟩

/-- A register write stores to its register. -/
theorem writeOp_busFrame {r v : Byte} {s : State} (hwf : s.bus.wf = true) : BusFrame [r] 0 s (writeOp r v s) :=
  (BusFrame.refl [r] 0 hwf).busWrite (go := deliverStatus) (.head _) fun _ _ hu => { hu with }

theorem writeOp_buf (r v : Byte) (s : State) : (writeOp r v s).buf = s.buf :=
  busWrite_ind (Q := fun t => t.buf = s.buf) (fun _ => rfl) fun _ _ _ => rfl

/-- A register read clears `0x30` or does not reach it. -/
theorem readOp_busFrame {stored : List Byte} {r : Byte} {n : Nat} {s : State} (hwf : s.bus.wf = true)
    (hr : regIntSource ∈ stored ∨ n ≤ (regIntSource - r).toNat) : BusFrame stored n s (readOp r n s) :=
  (BusFrame.refl stored n hwf).regRead (go := deliverStatus) hr fun _ _ hu => { hu with }

/-- Settles O50: the registers no operation changes, and the operation's own transactions. -/
theorem registerOperationFrame : Obligations.RegisterOperationFrame := by
  intro i stored s t hi hwf h
  obtain ⟨hcmd, hop⟩ : isCommand i = false
      ∧ ((∃ r v, exec i s = .next (writeOp r v s) ∧ stored = some r)
        ∨ ∃ r n, exec i s = .next (readOp r n s) ∧ encode i = .registerOp [r] ∧ (i ≠ .rdData → n = 1)
          ∧ (regIntSource ∈ stored.toList ∨ n ≤ (regIntSource - r).toNat)) := by
    obtain hi | hi | hi | hi | hi | hi | hi | hi | hi := hi
    iterate 5 obtain ⟨⟨v, rfl⟩, rfl⟩ := hi; exact ⟨rfl, .inl ⟨_, v, rfl, rfl⟩⟩
    all_goals obtain ⟨rfl, rfl⟩ := hi
    · exact ⟨rfl, .inr ⟨_, 1, rfl, rfl, fun _ => rfl, .inr (by decide)⟩⟩
    · exact ⟨rfl, .inr ⟨_, 1, rfl, rfl, fun _ => rfl, .inr (by decide)⟩⟩
    · exact ⟨rfl, .inr ⟨_, 1, rfl, rfl, fun _ => rfl, .inl (.head _)⟩⟩
    · exact ⟨rfl, .inr ⟨_, 6, rfl, rfl, fun hne => absurd rfl hne, .inr (by decide)⟩⟩
  have hbus : ((∃ r v, encode i = .registerOp [r, v]) → t.buf = s.buf)
      ∧ (i ≠ .rdData → t.draws = s.draws → t.buf = { s.buf with b0 := t.buf.b0 })
      ∧ ∀ x : Byte, stored ≠ some x → t.bus.reg x = s.bus.reg x := by
    obtain ⟨r, v, hexec, rfl⟩ | ⟨r, n, hexec, henc, hn, hr⟩ := hop
    · cases hexec.symm.trans h
      have hbuf := writeOp_buf r v s
      exact ⟨fun _ => hbuf, fun _ _ => by rw [hbuf],
        fun x hx => (writeOp_busFrame hwf).reg x (by simpa using Ne.symm hx)⟩
    · cases hexec.symm.trans h
      have hframe := readOp_busFrame hwf hr
      refine ⟨fun ⟨_, _, hwrite⟩ => (by cases henc.symm.trans hwrite), fun hne hd => ?_, fun x hx =>
        hframe.reg x (by simpa using hx)⟩
      obtain rfl := hn hne
      exact hframe.buf_one hd
  obtain ⟨_, _, _, _, _, _, rfl⟩ := (exec_registerOp_to hcmd h).exists_update
  exact ⟨rfl, rfl, rfl, rfl, rfl, rfl, rfl, rfl, rfl, rfl, rfl, rfl, rfl, hbus⟩

end Sys2Proof.Machine
end

section
/-! PROOF. The decoders of 41_decoders.md: a sample of two bytes read as signed (R144), and the event set of a byte
(R142). -/

namespace Sys2Proof.Machine

/-! ### The sample -/

/-- The high byte stands above the low one. -/
theorem sample16_toNat (lo hi : Byte) : (sample16 lo hi).toNat = hi.toNat * 256 + lo.toNat :=
  calc (sample16 lo hi).toNat
    _ = hi.toNat <<< 8 ||| lo.toNat := BitVec.toNat_append hi lo
    _ = hi.toNat <<< 8 + lo.toNat := (Nat.shiftLeft_add_eq_or_of_lt lo.isLt _).symm
    _ = hi.toNat * 256 + lo.toNat := by rw [Nat.shiftLeft_eq]

/-- Settles O33: the value of the two bytes, wrapped at half of the 16-bit range. -/
theorem sampleIsTwosComplement : Obligations.SampleIsTwosComplement := by
  intro lo hi
  have hhalf : 2 * (hi.toNat * 256 + lo.toNat) < 2 ^ 16 ↔ hi.toNat * 256 + lo.toNat < 32768 := by omega
  rw [BitVec.toInt_eq_toNat_cond, sample16_toNat]
  simp only [hhalf]
  rfl

/-! ### The event set -/

/-- A mask of one bit tests that bit. -/
theorem and_twoPow_ne_zero (b : Byte) {i : Nat} (hi : i < 8) : (b &&& BitVec.twoPow 8 i != 0) = b.getLsbD i := by
  have hpow : BitVec.twoPow 8 i ≠ 0 := fun h => by
    simpa [hi] using congrArg (BitVec.getLsbD · i) h
  rw [BitVec.and_twoPow]
  cases b.getLsbD i
  · rfl
  · exact bne_iff_ne.mpr hpow

/-- Activity, single tap and double tap test bits 4, 6 and 5. -/
theorem decodeEvents_eq (b : Byte) : decodeEvents b
    = BitVec.ofBool (b.getLsbD 5) ++ BitVec.ofBool (b.getLsbD 6) ++ BitVec.ofBool (b.getLsbD 4) := by
  rw [← and_twoPow_ne_zero b (i := 5) (by decide), ← and_twoPow_ne_zero b (i := 6) (by decide),
    ← and_twoPow_ne_zero b (i := 4) (by decide)]
  rfl

theorem getLsbD_ofBool_append : ∀ x y z : Bool,
    (BitVec.ofBool x ++ BitVec.ofBool y ++ BitVec.ofBool z).getLsbD 0 = z
      ∧ (BitVec.ofBool x ++ BitVec.ofBool y ++ BitVec.ofBool z).getLsbD 1 = y
      ∧ (BitVec.ofBool x ++ BitVec.ofBool y ++ BitVec.ofBool z).getLsbD 2 = x := by
  decide

/-- Settles O41: each event is its own bit of the byte. -/
theorem eventsAreThreeBitTests : Obligations.EventsAreThreeBitTests := by
  intro b
  rw [decodeEvents_eq]
  exact getLsbD_ofBool_append ..

end Sys2Proof.Machine
end

section
/-! PROOF. INIT as a whole (42_init.md R161 to R168): `RegRead` of the identity, and the configuration writes where it
matches. Its results are `RegRead`'s three outcomes, each followed by what INIT does with it. -/

namespace Sys2Proof.Machine

/-! ### After the identity read -/

theorem exec_init_eq_regRead (a7 : BitVec 7) (s : State) :
    exec (.init a7) s
      = .next (regRead 1 2 regDevid 1 (beginInit a7 (accept (initWord a7) s)) (configureOnMatch params)) := rfl

theorem configureOnMatch_of_failed (P : Params) (s : State) : configureOnMatch P false s = complete false 0 s := rfl

theorem configureOnMatch_of_ne {s : State} (hid : s.buf.b0 ≠ 0xE5) (P : Params) :
    configureOnMatch P true s = complete false 0 s :=
  if_neg fun h => hid ((idMatch_iff _).1 h)

/-- On a match RDY becomes the AND of the configuration writes' statuses, and INIT answers RDY. -/
theorem configureOnMatch_of_eq {P : Params} {s : State} {as : List Answer} {t : Transport} (hid : s.buf.b0 = 0xE5)
    (hreq : s.req = none)
    (hwrites : s.bus.replies (writeRequests s.devaddr (configSequence P)) = some (as, t)) :
    configureOnMatch P true s = complete (as.all Answer.ok) 0
      { s with
        rdy := as.all Answer.ok, bus := t, trace := s.trace ++ writeEvents s.devaddr (configSequence P) as } :=
  calc configureOnMatch P true s
    _ = configWrites 3 foldRdy (configSequence P) (setReady s) fun s => complete s.rdy 0 s :=
      if_pos ((idMatch_iff _).2 hid)
    _ = _ := configWrites_foldRdy (s := setReady s) hwrites hreq

/-! ### Results -/

/-- Settles O30: the first two transactions are the identity read, the other six the configuration writes. -/
theorem initWithIdentityMatched : Obligations.InitWithIdentityMatched := by
  rintro a7 _ s d0 d1 w1 w2 w3 w4 w5 w6 t rfl h hid
  obtain ⟨b₁, hsel, h⟩ := Transport.replies_cons_cons.1 h
  obtain ⟨b₂, hread, hwrites⟩ := Transport.replies_cons_cons.1 h
  have hident : s.bus.replies [.write (busForm a7) [0x00], .read (busForm a7) 1]
      = some ([.success d0, .success d1], b₂) :=
    Transport.replies_cons_cons.2 ⟨b₁, hsel, Transport.replies_cons_cons.2 ⟨b₂, hread, Transport.replies_nil b₂⟩⟩
  obtain ⟨-, -, hok⟩ := regReadIsTwoPhases 1 2 regDevid 1 (beginInit a7 (accept (initWord a7) s))
    (configureOnMatch params)
  rw [exec_init_eq_regRead, hok d0 d1 b₂ hident, configureOnMatch_of_eq hid rfl hwrites]
  simp [complete, beginInit, accept, writeEvents, configSequence, Bool.and_assoc, hid]

/-- Settles O31: a select or a read that fails, and a byte that is not the identity, end INIT where they stand. -/
theorem initWithIdentityRefused : Obligations.InitWithIdentityRefused := by
  have houtcomes := fun (a7 : BitVec 7) (s : State) =>
    regReadIsTwoPhases 1 2 regDevid 1 (beginInit a7 (accept (initWord a7) s)) (configureOnMatch params)
  refine ⟨?select, ?read, ?mismatch⟩
  case select =>
    rintro a7 _ s t rfl h
    obtain ⟨hsel, -, -⟩ := houtcomes a7 s
    rw [exec_init_eq_regRead, hsel t h, configureOnMatch_of_failed]
    simp [complete, beginInit, accept]
  case read =>
    rintro a7 _ s d t rfl h
    obtain ⟨-, hread, -⟩ := houtcomes a7 s
    rw [exec_init_eq_regRead, hread d t h, configureOnMatch_of_failed]
    simp [complete, beginInit, accept]
  case mismatch =>
    rintro a7 _ s d0 d t rfl h hne
    obtain ⟨-, -, hok⟩ := houtcomes a7 s
    rw [exec_init_eq_regRead, hok d0 d t h, configureOnMatch_of_ne hne]
    simp [complete, beginInit, accept]

end Sys2Proof.Machine
end

section
/-! PROOF. READ as a whole on a ready machine (43_read.md R181 to R189): the mode write, and where it succeeds the wait
and the burst. Once its select has succeeded the burst is `RegRead`, so READ's results are `RegRead`'s, each followed by
what READ does with it. -/

namespace Sys2Proof.Machine

/-! ### The mode write and the burst -/

/-- READ accepted, and its mode write answered with status `ok`. -/
def modeWritten (mask : BitVec 3) (ok : Bool) (t : Transport) (s : State) : State :=
  answered (.write s.devaddr [0x2D, params.measure] ok) t (accept (readWord mask) s)

/-- The wait and the burst follow a successful mode write only (43_read.md R183, R184). -/
theorem exec_read_of_mode_answered {s : State} {a : Answer} {t : Transport} (mask : BitVec 3) (hrdy : s.rdy = true)
    (h : s.bus.respond (.write s.devaddr [0x2D, params.measure]) = some (a, t)) :
    exec (.read mask) s = .next
      (if a.ok then readBurst (waitSettle params (modeWritten mask a.ok t s)) (endRead mask)
      else complete false 0 (modeWritten mask a.ok t s)) :=
  congrArg Host.Outcome.next <|
    (ifReady_of_ready (s := accept (readWord mask) s) hrdy).trans (busWrite_some (s := accept (readWord mask) s) h)

/-- Once its select has succeeded, the burst is `RegRead` at steps 3 and 4. -/
theorem exec_read_eq_regRead {s : State} {d0 d1 : Bytes6} {b t : Transport} (mask : BitVec 3) (hrdy : s.rdy = true)
    (hmode : s.bus.respond (.write s.devaddr [0x2D, params.measure]) = some (.success d0, b))
    (hsel : b.respond (.write s.devaddr [0x32]) = some (.success d1, t)) :
    exec (.read mask) s
      = .next (regRead 3 4 regData 6 (waitSettle params (modeWritten mask true b s)) (endRead mask)) :=
  (exec_read_of_mode_answered mask hrdy hmode).trans <| congrArg Host.Outcome.next <|
    (readBurst_selected (s := waitSettle params (modeWritten mask true b s)) hsel).trans (regRead_selected hsel).symm

/-! ### Results -/

/-- Settles O34: the burst succeeds, and the masked slots take its samples. -/
theorem readWritesTheMaskedSlots : Obligations.ReadWritesTheMaskedSlots := by
  intro mask s d0 d1 d t hrdy h
  obtain ⟨b, hmode, hburst⟩ := Transport.replies_cons_cons.1 h
  obtain ⟨_, hsel, -⟩ := Transport.replies_cons_cons.1 hburst
  obtain ⟨-, -, hok⟩ := regReadIsTwoPhases 3 4 regData 6 (waitSettle params (modeWritten mask true b s)) (endRead mask)
  rw [exec_read_eq_regRead mask hrdy hmode hsel, hok d1 d t hburst]
  simp [endRead, complete, writeSlots, unpackXyz, sample16, waitSettle, modeWritten, answered, accept]

/-- Settles O35: a mode write, a select or a read that fails ends READ where it stands. -/
theorem readFailuresWriteNoSlot : Obligations.ReadFailuresWriteNoSlot := by
  refine ⟨?mode, ?select, ?read⟩
  case mode =>
    intro mask s t hrdy h
    rw [exec_read_of_mode_answered mask hrdy h, Answer.ok_failure, if_neg Bool.false_ne_true]
    simp [complete, modeWritten, answered, accept]
  case select =>
    intro mask s d0 t hrdy h
    simp only [Transport.replies_cons_cons, Transport.replies_nil, Option.some.injEq, Prod.mk.injEq, true_and] at h
    obtain ⟨b, hmode, _, hsel, rfl⟩ := h
    rw [exec_read_of_mode_answered mask hrdy hmode, Answer.ok_success, if_pos rfl,
      readBurst_select_failed (s := waitSettle params (modeWritten mask true b s)) hsel]
    simp [endRead, complete, scrambleBuf, waitSettle, modeWritten, answered, accept]
  case read =>
    intro mask s d0 d1 t hrdy h
    obtain ⟨b, hmode, hburst⟩ := Transport.replies_cons_cons.1 h
    obtain ⟨_, hsel, -⟩ := Transport.replies_cons_cons.1 hburst
    obtain ⟨-, hread, -⟩ :=
      regReadIsTwoPhases 3 4 regData 6 (waitSettle params (modeWritten mask true b s)) (endRead mask)
    rw [exec_read_eq_regRead mask hrdy hmode hsel, hread d1 t hburst]
    simp [endRead, complete, waitSettle, modeWritten, answered, accept]

end Sys2Proof.Machine
end

section
/-! PROOF. SET_THRESH as a whole (44_threshold.md R196). It shares its shape with INT_DISABLE (45_interrupts.md R216):
the readiness test, and on a ready machine one write, whose status is the response. -/

namespace Sys2Proof.Machine

/-- A command of one write completes with the status its write is answered with. -/
theorem singleWrite_of_answered {w : CmdWord} {r v : Byte} {s : State} {a : Answer} {t : Transport}
    (hrdy : s.rdy = true) (h : s.bus.respond (.write s.devaddr [r, v]) = some (a, t)) :
    (ifReady (accept w s) fun s => regWrite 1 r [v] s fun ok s => complete ok 0 s)
      = complete a.ok 0 (answered (.write s.devaddr [r, v] a.ok) t (accept w s)) :=
  (ifReady_of_ready (s := accept w s) hrdy).trans (busWrite_some (s := accept w s) h)

/-- Settles O37: the readiness test ends the command, or its one write does. -/
theorem setThreshWritesTheOperand : Obligations.SetThreshWritesTheOperand := by
  intro t s
  refine ⟨fun hrdy => ?notReady, fun hrdy a b h => ?ready⟩
  case notReady =>
    rw [exec_of_not_ready rfl rfl hrdy]
    simp [complete, accept]
  case ready =>
    have hwrite : exec (.setThresh t) s = .next (complete a.ok 0
        (answered (.write s.devaddr [0x24, t] a.ok) b (accept (setThreshWord t) s))) :=
      congrArg Host.Outcome.next (singleWrite_of_answered hrdy h)
    rw [hwrite]
    simp [complete, answered, accept]

end Sys2Proof.Machine
end

section
/-! PROOF. The interrupt commands of one register access (45_interrupts.md R201, R216, R221): INT_DISABLE is one write,
INT_QUERY and INT_HANDLE are one `RegRead`. The results of the latter two are `RegRead`'s three outcomes, each followed
by what the command completes with. -/

namespace Sys2Proof.Machine

/-! ### INT_DISABLE -/

/-- Settles O38: the readiness test ends the command, or its one write does. -/
theorem intDisableWritesZero : Obligations.IntDisableWritesZero := by
  intro s
  refine ⟨fun hrdy => ?notReady, fun hrdy a b h => ?ready⟩
  case notReady =>
    rw [exec_of_not_ready rfl rfl hrdy]
    simp [complete, accept]
  case ready =>
    have hwrite : exec .intDisable s = .next (complete a.ok 0
        (answered (.write s.devaddr [0x2E, 0x00] a.ok) b (accept 0x6000 s))) :=
      congrArg Host.Outcome.next (singleWrite_of_answered hrdy h)
    rw [hwrite]
    simp [complete, answered, accept]

/-! ### INT_QUERY -/

theorem anyEnabled_eq_decide (b : Byte) : anyEnabled b = decide (b ≠ 0) :=
  Bool.eq_iff_iff.2 ((anyEnabled_iff b).trans decide_eq_true_iff.symm)

/-- What INT_QUERY completes with (45_interrupts.md R201). -/
def endIntQuery (ok : Bool) (s : State) : State := complete (ok && anyEnabled s.buf.b0) 0 s

theorem exec_intQuery_eq_regRead {s : State} (hrdy : s.rdy = true) :
    exec .intQuery s = .next (regRead 1 2 regIntEnable 1 (accept 0x4000 s) endIntQuery) :=
  congrArg Host.Outcome.next (ifReady_of_ready (s := accept 0x4000 s) hrdy)

/-- Settles O40: the readiness test ends the command, or an outcome of `RegRead` does. -/
theorem intQueryTestsNonzero : Obligations.IntQueryTestsNonzero := by
  intro s
  obtain ⟨hselect, hread, hok⟩ := regReadIsTwoPhases 1 2 regIntEnable 1 (accept 0x4000 s) endIntQuery
  refine ⟨fun hrdy => ?notReady, fun hrdy b h => ?select, fun hrdy d0 b h => ?read, fun hrdy d0 d b h => ?ok⟩
  case notReady =>
    rw [exec_of_not_ready rfl rfl hrdy]
    simp [complete, accept]
  case select =>
    rw [exec_intQuery_eq_regRead hrdy, hselect b h]
    simp [endIntQuery, complete, accept]
  case read =>
    rw [exec_intQuery_eq_regRead hrdy, hread d0 b h]
    simp [endIntQuery, complete, accept]
  case ok =>
    rw [exec_intQuery_eq_regRead hrdy, hok d0 d b h]
    simp [endIntQuery, complete, accept, anyEnabled_eq_decide]

/-! ### INT_HANDLE -/

/-- What INT_HANDLE completes with (45_interrupts.md R221). -/
def endIntHandle (ok : Bool) (s : State) : State := complete false (if ok then decodeEvents s.buf.b0 else 0) s

theorem exec_intHandle_eq_regRead {s : State} (hrdy : s.rdy = true) :
    exec .intHandle s = .next (regRead 1 2 regIntSource 1 (accept 0x7000 s) endIntHandle) :=
  congrArg Host.Outcome.next (ifReady_of_ready (s := accept 0x7000 s) hrdy)

/-- Settles O42: the readiness test ends the command, or an outcome of `RegRead` does. -/
theorem intHandleDecodesEvents : Obligations.IntHandleDecodesEvents := by
  intro s
  obtain ⟨hselect, hread, hok⟩ := regReadIsTwoPhases 1 2 regIntSource 1 (accept 0x7000 s) endIntHandle
  refine ⟨fun hrdy => ?notReady, fun hrdy b h => ?select, fun hrdy d0 b h => ?read, fun hrdy d0 d b h => ?ok⟩
  case notReady =>
    rw [exec_of_not_ready rfl rfl hrdy]
    simp [complete, accept]
  case select =>
    rw [exec_intHandle_eq_regRead hrdy, hselect b h]
    simp [endIntHandle, complete, accept]
  case read =>
    rw [exec_intHandle_eq_regRead hrdy, hread d0 b h]
    simp [endIntHandle, complete, accept]
  case ok =>
    rw [exec_intHandle_eq_regRead hrdy, hok d0 d b h]
    simp [endIntHandle, complete, accept]

end Sys2Proof.Machine
end

section
/-! PROOF. INT_ENABLE as a whole (45_interrupts.md R206 to R213), for every parameter value: the writes before the
flush, the flush, and the writes after it. The flush is a `RegRead` whose outcome is ignored, so its three outcomes
differ only in BUF, the draws and the events; everything else of the command's end is common to them. -/

namespace Sys2Proof.Machine

/-! ### The step table -/

/-- Settles O26: the table's flush stands after write `p` for every `P_FLUSH_POS`. -/
theorem intEnableTableForEveryFlushPos : Obligations.IntEnableTableForEveryFlushPos := intEnableCommand_eq_runSteps

/-! ### The three parts -/

/-- A list of transactions and then another are answered where the first list is and then the second, each transaction
by its own answer. -/
theorem Transport.replies_append_append {rs₁ rs₂ : List Request} {as₁ as₂ : List Answer} {t t' : Transport}
    (hlen : as₁.length = rs₁.length) :
    t.replies (rs₁ ++ rs₂) = some (as₁ ++ as₂, t')
      ↔ ∃ t₁, t.replies rs₁ = some (as₁, t₁) ∧ t₁.replies rs₂ = some (as₂, t') := by
  induction rs₁ generalizing as₁ t with
  | nil => simp [List.eq_nil_of_length_eq_zero hlen]
  | cons r rs ih =>
    obtain ⟨a, as, rfl⟩ := List.exists_cons_of_length_eq_add_one hlen
    have hlen' : as.length = rs.length := Nat.succ.inj hlen
    simp only [List.cons_append, Transport.replies_cons_cons, ih hlen']
    constructor
    · rintro ⟨t₁, hr, t₂, hrs, h⟩; exact ⟨t₂, ⟨t₁, hr, hrs⟩, h⟩
    · rintro ⟨t₂, ⟨t₁, hr, hrs⟩, h⟩; exact ⟨t₁, hr, t₂, hrs, h⟩

/-- INT_ENABLE accepted, and its writes before the flush answered. -/
def beforeFlush (P : Params) (as : List Answer) (t : Transport) (s : State) : State :=
  { setAcc (accept 0x5000 s) with
    acc := as.all Answer.ok, bus := t
    trace := s.trace ++ writeEvents s.devaddr ((configSequence P).take P.flushPos.toNat) as }

/-- The flush's transactions answered, BUF and the draws as the flush leaves them. -/
def flushed (buf : Bytes6) (draws : Nat) (events : List Event) (t : Transport) (s : State) : State :=
  { s with req := none, bus := t, buf := buf, draws := draws, trace := s.trace ++ events }

theorem intEnableCommand_of_answered {P : Params} {s : State} {as : List Answer} {t : Transport} (hrdy : s.rdy = true)
    (h : s.bus.replies (writeRequests s.devaddr ((configSequence P).take P.flushPos.toNat)) = some (as, t)) :
    intEnableCommand P s = flushAndAfter P (beforeFlush P as t s) :=
  (ifReady_of_ready (s := accept 0x5000 s) hrdy).trans
    (configWrites_foldAcc (s := setAcc (accept 0x5000 s)) (go := flushAndAfter P) h rfl)

theorem writesAfterFlush_of_answered {P : Params} {s : State} {as : List Answer} {t : Transport} (hreq : s.req = none)
    (h : s.bus.replies (writeRequests s.devaddr ((configSequence P).drop P.flushPos.toNat)) = some (as, t)) :
    writesAfterFlush P s = complete (s.acc && as.all Answer.ok) 0
      { s with
        acc := s.acc && as.all Answer.ok, bus := t
        trace := s.trace ++ writeEvents s.devaddr ((configSequence P).drop P.flushPos.toNat) as } :=
  configWrites_foldAcc h hreq

/-! ### The whole command -/

/-- What stands for the six writes, with what stands for the flush put in after write `P_FLUSH_POS`. -/
def flushAt {α : Type} (P : Params) (flush writes : List α) : List α :=
  writes.take P.flushPos.toNat ++ flush ++ writes.drop P.flushPos.toNat

/-- INT_ENABLE completed on a ready machine: the six writes answered by `ws`, the flush's events, and what the flush
leaves in BUF and the draws. -/
def intEnabled (P : Params) (ws : List Answer) (buf : Bytes6) (draws : Nat) (events : List Event) (b : Transport)
    (s : State) : State :=
  complete (ws.all Answer.ok) 0
    { accept 0x5000 s with
      acc := ws.all Answer.ok, bus := b, buf := buf, draws := draws
      trace := s.trace ++ flushAt P events (writeEvents s.devaddr (configSequence P) ws) }

section Answered

variable {P : Params} {s : State} {ws : List Answer} {b : Transport}

/-- The six writes' statuses are folded whatever the flush's transactions `rs` were answered with. -/
theorem intEnableCommand_of_flushed {rs : List Request} {fs : List Answer} {buf : Bytes6} {draws : Nat}
    {events : List Event} (hrdy : s.rdy = true) (hws : ws.length = 6) (hfs : fs.length = rs.length)
    (hflush : ∀ as t₁ t₂, t₁.replies rs = some (fs, t₂) →
      flushAndAfter P (beforeFlush P as t₁ s)
        = writesAfterFlush P (flushed buf draws events t₂ (beforeFlush P as t₁ s)))
    (h : s.bus.replies (flushAt P rs (writeRequests s.devaddr (configSequence P))) = some (flushAt P fs ws, b)) :
    intEnableCommand P s = intEnabled P ws buf draws events b s := by
  have hlen : (writeRequests s.devaddr (configSequence P)).length = ws.length := hws.symm
  unfold flushAt at h
  obtain ⟨t₂, h, hafter⟩ :=
    (Transport.replies_append_append (by simp only [List.length_append, List.length_take, hlen, hfs])).1 h
  obtain ⟨t₁, hbefore, hrs⟩ := (Transport.replies_append_append (by simp only [List.length_take, hlen])).1 h
  rw [writeRequests, ← List.map_take] at hbefore
  rw [writeRequests, ← List.map_drop] at hafter
  have hall : ((ws.take P.flushPos.toNat).all Answer.ok && (ws.drop P.flushPos.toNat).all Answer.ok)
      = ws.all Answer.ok := by
    rw [← List.all_append, List.take_append_drop]
  rw [intEnableCommand_of_answered hrdy hbefore, hflush _ t₁ t₂ hrs, writesAfterFlush_of_answered rfl hafter]
  simp [intEnabled, flushed, beforeFlush, flushAt, writeEvents, complete, accept, setAcc, List.take_zipWith,
    List.drop_zipWith, hall]

/-- The flush succeeds: BUF takes the byte read. -/
theorem intEnableCommand_flush_success {f0 f : Bytes6} (hrdy : s.rdy = true) (hws : ws.length = 6)
    (h : s.bus.replies
        (flushAt P [.write s.devaddr [0x30], .read s.devaddr 1] (writeRequests s.devaddr (configSequence P)))
      = some (flushAt P [.success f0, .success f] ws, b)) :
    intEnableCommand P s = intEnabled P ws { s.buf with b0 := f.b0 } s.draws
      [.write s.devaddr [0x30] true, .read s.devaddr 1 true [f.b0]] b s := by
  refine intEnableCommand_of_flushed hrdy hws rfl (fun as t₁ t₂ hrs => ?_) h
  obtain ⟨-, -, hok⟩ := regReadIsTwoPhases _ _ regIntSource 1 (beforeFlush P as t₁ s) fun _ s => writesAfterFlush P s
  exact hok f0 f t₂ hrs

/-- The flush's read fails: BUF is a free value. -/
theorem intEnableCommand_flush_read_failed {f0 : Bytes6} (hrdy : s.rdy = true) (hws : ws.length = 6)
    (h : s.bus.replies
        (flushAt P [.write s.devaddr [0x30], .read s.devaddr 1] (writeRequests s.devaddr (configSequence P)))
      = some (flushAt P [.success f0, .failure] ws, b)) :
    intEnableCommand P s = intEnabled P ws (Config.failedRead s.draws) (s.draws + 1)
      [.write s.devaddr [0x30] true, .read s.devaddr 1 false []] b s := by
  refine intEnableCommand_of_flushed hrdy hws rfl (fun as t₁ t₂ hrs => ?_) h
  obtain ⟨-, hread, -⟩ := regReadIsTwoPhases _ _ regIntSource 1 (beforeFlush P as t₁ s) fun _ s => writesAfterFlush P s
  exact hread f0 t₂ hrs

/-- The flush's select fails: no read follows, and BUF is as it was. -/
theorem intEnableCommand_flush_select_failed (hrdy : s.rdy = true) (hws : ws.length = 6)
    (h : s.bus.replies (flushAt P [.write s.devaddr [0x30]] (writeRequests s.devaddr (configSequence P)))
      = some (flushAt P [.failure] ws, b)) :
    intEnableCommand P s = intEnabled P ws s.buf s.draws [.write s.devaddr [0x30] false] b s := by
  refine intEnableCommand_of_flushed hrdy hws rfl (fun as t₁ t₂ hrs => ?_) h
  obtain ⟨hselect, -, -⟩ :=
    regReadIsTwoPhases _ _ regIntSource 1 (beforeFlush P as t₁ s) fun _ s => writesAfterFlush P s
  obtain ⟨t, hresp, hnil⟩ := Transport.replies_cons_cons.1 hrs
  obtain rfl : t = t₂ := by simpa using hnil
  exact hselect t hresp

end Answered

/-! ### Results -/

/-- The end of INT_ENABLE with the machine's own parameters, whose flush stands after the fourth write. -/
theorem intEnabled_params (w1 w2 w3 w4 w5 w6 : Answer) (buf : Bytes6) (draws : Nat) (events : List Event)
    (b : Transport) (s : State) :
    intEnabled params [w1, w2, w3, w4, w5, w6] buf draws events b s = { s with
      busy := false, op := 5, arg := 0, stepNo := 0, req := none, bus := b, buf := buf, draws := draws
      acc := w1.ok && w2.ok && w3.ok && w4.ok && w5.ok && w6.ok
      respOk := w1.ok && w2.ok && w3.ok && w4.ok && w5.ok && w6.ok, respEv := 0
      trace := s.trace ++
        ([.write s.devaddr [0x2E, 0x00] w1.ok, .write s.devaddr [0x24, params.threshDefault] w2.ok,
          .write s.devaddr [0x27, params.actCtl] w3.ok, .write s.devaddr [0x2C, params.bwRate] w4.ok] ++ events ++
          [.write s.devaddr [0x2E, params.intAct] w5.ok, .write s.devaddr [0x2D, params.measure] w6.ok])
      delivered := s.delivered ++ [.response (w1.ok && w2.ok && w3.ok && w4.ok && w5.ok && w6.ok) 0] } := by
  simp [intEnabled, flushAt, complete, accept, writeEvents, configSequence, FlushPos.toNat, Bool.and_assoc]

/-- Settles O44: the flush after the fourth write, in each of its three outcomes. -/
theorem intEnableRunsSixWritesAndFlush : Obligations.IntEnableRunsSixWritesAndFlush := by
  refine ⟨fun s f0 f w1 w2 w3 w4 w5 w6 b hrdy h => ?success, fun s f0 w1 w2 w3 w4 w5 w6 b hrdy h => ?readFailed,
    fun s w1 w2 w3 w4 w5 w6 b hrdy h => ?selectFailed⟩
  case success =>
    have hrun := intEnableCommand_flush_success (P := params) (ws := [w1, w2, w3, w4, w5, w6]) hrdy rfl h
    exact congrArg Host.Outcome.next (hrun.trans (intEnabled_params ..))
  case readFailed =>
    have hrun := intEnableCommand_flush_read_failed (P := params) (ws := [w1, w2, w3, w4, w5, w6]) hrdy rfl h
    exact congrArg Host.Outcome.next (hrun.trans (intEnabled_params ..))
  case selectFailed =>
    have hrun := intEnableCommand_flush_select_failed (P := params) (ws := [w1, w2, w3, w4, w5, w6]) hrdy rfl h
    exact congrArg Host.Outcome.next (hrun.trans (intEnabled_params ..))

/-- Settles O45: the response is the AND of the writes' statuses in every outcome of the flush. -/
theorem intEnableResultForEveryFlushPos : Obligations.IntEnableResultForEveryFlushPos := by
  refine ⟨fun P s requests ws f0 f b hrdy hreqs hws h => ?selected, fun P s requests ws b hrdy hreqs hws h => ?failed⟩
  case selected =>
    subst hreqs
    cases f with
    | success f => rw [intEnableCommand_flush_success hrdy hws h]; exact ⟨rfl, rfl, hrdy, rfl⟩
    | failure => rw [intEnableCommand_flush_read_failed hrdy hws h]; exact ⟨rfl, rfl, hrdy, rfl⟩
  case failed =>
    subst hreqs
    rw [intEnableCommand_flush_select_failed hrdy hws h]
    exact ⟨rfl, rfl, hrdy, rfl⟩

end Sys2Proof.Machine
end

section
/-! PROOF. INT_ENABLE on a machine wired to the reference chip (95_test_vectors.md section 4): every configuration write
stores its value, and the flush's read clears `0x30` (20_memory.md R58). -/

namespace Sys2Proof.Machine

/-! ### A list of register writes -/

/-- The chip after register writes `ws` in order, none of them to the identity. -/
def RefChip.storeAll (c : RefChip) (ws : List (Byte × Byte)) : RefChip := ws.foldl (fun c w => c.store w.1 w.2) c

theorem RefChip.storeAll_wf {c : RefChip} (h : c.regs.wf = true) (ws : List (Byte × Byte)) :
    (c.storeAll ws).regs.wf = true := by
  induction ws generalizing c with
  | nil => exact h
  | cons w ws ih => exact ih (RefChip.store_wf h w.1 w.2)

/-- The value last written to register `a`, or `old` where it is not written. -/
def lastWritten (a : Byte) (ws : List (Byte × Byte)) (old : Byte) : Byte :=
  ws.foldl (fun v w => if a = w.1 then w.2 else v) old

theorem RefChip.reg_storeAll {c : RefChip} (h : c.regs.wf = true) (ws : List (Byte × Byte)) (a : Byte) :
    (c.storeAll ws).reg a = lastWritten a ws (c.reg a) := by
  induction ws generalizing c with
  | nil => rfl
  | cons w ws ih => exact (ih (RefChip.store_wf h w.1 w.2)).trans (congrArg _ (RefChip.reg_store h w.1 w.2 a))

/-- On a wired machine every write of a list stores its value, and no status clears ACC. -/
theorem Wired.configWrites {ws : List (Byte × Byte)} {k : BitVec 4} {s : State} {c : RefChip} {go : State → State}
    (h : Wired s c) (hws : ∀ w ∈ ws, w.1 ≠ regDevid) :
    ∃ u, configWrites k foldAcc ws s go = go u ∧ Wired u (c.storeAll ws) ∧ u.acc = s.acc := by
  induction ws generalizing k s c with
  | nil => exact ⟨s, rfl, h, rfl⟩
  | cons w ws ih =>
    obtain ⟨hw, hws⟩ := List.forall_mem_cons.1 hws
    rw [configWrites_cons, h.busWrite_store hw]
    have hstored : Wired (foldAcc true
        (Machine.answered (.write s.devaddr [w.1, w.2] true) (.chip (c.store w.1 w.2)) s)) (c.store w.1 w.2) :=
      ⟨rfl, h.devaddr⟩
    obtain ⟨u, hu, hwired, hacc⟩ := ih hstored hws
    exact ⟨u, hu, hwired, hacc.trans (Bool.and_true _)⟩

/-! ### The flush -/

/-- The chip after INT_ENABLE's flush. -/
def RefChip.flush (c : RefChip) : RefChip := (c.select regIntSource).afterRead 1

theorem RefChip.flush_addr7 (c : RefChip) : c.flush.addr7 = c.addr7 := RefChip.afterRead_addr7 _ _

theorem RefChip.flush_wf {c : RefChip} (h : c.regs.wf = true) : c.flush.regs.wf = true :=
  RefChip.afterRead_wf (c := c.select regIntSource) 1 h

/-- The flush clears `0x30` and no other register. -/
theorem RefChip.reg_flush {c : RefChip} (h : c.regs.wf = true) (a : Byte) :
    c.flush.reg a = if a = regIntSource then 0 else c.reg a := by
  rw [RefChip.flush, RefChip.reg_afterRead (c := c.select regIntSource) h, RefChip.reg_select]
  simp [RefChip.select]

/-! ### The command -/

theorem configSequence_ne_devid (P : Params) : ∀ w ∈ configSequence P, w.1 ≠ regDevid := by
  simp [configSequence]

/-- The chip after INT_ENABLE: the writes before the flush, the flush, and the writes after it. -/
def RefChip.intEnabled (P : Params) (c : RefChip) : RefChip :=
  (c.storeAll ((configSequence P).take P.flushPos.toNat)).flush.storeAll ((configSequence P).drop P.flushPos.toNat)

theorem RefChip.reg_intEnabled {c : RefChip} (h : c.regs.wf = true) (P : Params) (a : Byte) :
    (c.intEnabled P).reg a = lastWritten a ((configSequence P).drop P.flushPos.toNat)
      (if a = regIntSource then 0 else lastWritten a ((configSequence P).take P.flushPos.toNat) (c.reg a)) := by
  have hwf := RefChip.storeAll_wf h ((configSequence P).take P.flushPos.toNat)
  rw [RefChip.intEnabled, RefChip.reg_storeAll (RefChip.flush_wf hwf), RefChip.reg_flush hwf, RefChip.reg_storeAll h]

/-- INT_ENABLE succeeds on a ready machine wired to the chip. -/
theorem intEnableCommand_wired {s : State} {c : RefChip} (h : Wired s c) (hrdy : s.rdy = true) (P : Params) :
    (intEnableCommand P s).respOk = true ∧ (intEnableCommand P s).bus = .chip (c.intEnabled P) := by
  have hne := configSequence_ne_devid P
  obtain ⟨u, hbefore, hu, hacc⟩ := Wired.configWrites (s := setAcc (accept 0x5000 s)) (k := 1) (go := flushAndAfter P)
    ⟨h.bus, h.devaddr⟩ fun w hw => hne w (List.mem_of_mem_take hw)
  have hflushed : Wired (afterSelectRead (c.storeAll _) regIntSource 1 u) (c.storeAll _).flush :=
    ⟨rfl, by rw [RefChip.flush_addr7]; exact hu.devaddr⟩
  obtain ⟨v, hafter, hv, hacc'⟩ := hflushed.configWrites (k := BitVec.ofNat 4 (P.flushPos.toNat + 3))
    (go := fun s => complete s.acc 0 s) fun w hw => hne w (List.mem_of_mem_drop hw)
  have hrun : intEnableCommand P s = complete v.acc 0 v :=
    calc intEnableCommand P s
      _ = flushAndAfter P u := (ifReady_of_ready (s := accept 0x5000 s) hrdy).trans hbefore
      _ = writesAfterFlush P _ := hu.regRead regIntSource 1
      _ = complete v.acc 0 v := hafter
  rw [hrun]
  exact ⟨hacc'.trans hacc, hv.bus⟩

/-- Settles O54: the writes store the defaults, and the flush clears the latch. -/
theorem intEnableReplacesTheThreshold : Obligations.IntEnableReplacesTheThreshold := by
  intro s c hrdy hbus hwf hdev
  obtain ⟨hok, hchip⟩ := intEnableCommand_wired ⟨hbus, hdev⟩ hrdy params
  have hreg : ∀ a v : Byte, (c.intEnabled params).reg a = v → (intEnableCommand params s).bus.reg a = some v :=
    fun a v ha => by rw [hchip]; exact congrArg some ha
  refine ⟨_, rfl, hok, hreg _ _ ?_, hreg _ _ ?_, hreg _ _ ?_⟩ <;> rw [RefChip.reg_intEnabled hwf] <;> rfl

end Sys2Proof.Machine
end

section
/-! PROOF. SEQ raises nothing (60_exceptions.md R230). A command in progress stands at a row of its table, and a row
that does not end the command leads to another, so that a run never looks for a step the table does not have. Nothing
else a step does can fault, but a resumed register-level operation whose transaction is none of R91, which the
invariant excludes. -/

namespace Sys2Proof.Machine

theorem noFault_next (t : State) : NoFault (.next t) := fun _ h => nomatch h

theorem noFault_refused (r : Refusal) : NoFault (.refused r) := fun _ h => nomatch h

/-! ### The rows of a table -/

/-- Command `i`'s table has a row at step `k`. -/
def HasRow (P : Params) (i : Instr) (k : BitVec 4) : Prop := ∀ s, tickCommand P i (goto k s) ≠ none

/-- `t` has ended command `i`, or stands at a row of its table. -/
def LeadsOn (P : Params) (i : Instr) (t : State) : Prop := t.busy = true → HasRow P i t.stepNo

section

variable {P : Params} {i : Instr} {k : BitVec 4} {s t : State}

/-- Whether there is a row depends on STEP alone. -/
theorem hasRow_of_tickCommand (h : tickCommand P i s = some t) : HasRow P i s.stepNo := by
  intro u
  cases rowForm P i s.stepNo with
  | absent ht => cases h.symm.trans (ht s)
  | store ht | write ht | read ht => rw [ht u]; exact Option.some_ne_none _

/-- A step with a transaction is a row. -/
theorem hasRow_of_rowRequest {dev : Byte} {r : Request} (h : rowRequest P i k.toNat dev = some r) : HasRow P i k := by
  intro u
  cases rowForm P i k with
  | absent _ hr => cases h.symm.trans (hr dev)
  | store ht | write ht | read ht => rw [ht u]; exact Option.some_ne_none _

/-- INIT's table has steps 0 to 9 (42_init.md R173). -/
theorem hasRow_init {a7 : BitVec 7} (hk : k ≤ 9) : HasRow P (.init a7) k := by
  intro s h
  have h9 : k.toNat ≤ 9 := hk
  simp only [tickCommand, tickInit, goto_stepNo] at h
  interval_cases k.toNat <;> cases h

/-- READ's has steps 0 to 5 (43_read.md R187). -/
theorem hasRow_read {mask : BitVec 3} (hk : k ≤ 5) : HasRow P (.read mask) k := by
  intro s h
  have h5 : k.toNat ≤ 5 := hk
  simp only [tickCommand, tickRead, goto_stepNo] at h
  interval_cases k.toNat <;> cases h

/-- INT_ENABLE's has steps 0 to 9, wherever the flush stands (45_interrupts.md R212). -/
theorem hasRow_intEnable (hk : k ≤ 9) : HasRow P .intEnable k := by
  intro s h
  have hp := flushPos_toNat_le P.flushPos
  have h9 : (goto k s).stepNo.toNat ≤ 9 := hk
  generalize goto k s = u at h h9
  simp only [tickCommand, tickIntEnable] at h
  iterate 4
    split at h
    · cases h
  split at h
  · split at h
    · cases h
    · omega
  next hw =>
    have hge : 6 ≤ _ := List.getElem?_eq_none_iff.1 hw
    split at hge <;> omega

/-! ### A row leads to a row -/

namespace LeadsOn

theorem goto (h : HasRow P i k) : LeadsOn P i (goto k s) := fun _ => h

theorem ended {ok : Bool} {ev : BitVec 3} : LeadsOn P i (complete ok ev s) := fun h => by cases h

/-- A row that tests RDY. -/
theorem testReady (h : HasRow P i 1) : LeadsOn P i (rowTestReady s) := ifReady_ind (fun _ => ended) fun _ => goto h

/-- A row with a write. -/
theorem busWrite {bytes : List Byte} {go : Bool → State → State} (hk : HasRow P i k)
    (hgo : ∀ ok u, LeadsOn P i (go ok u)) : LeadsOn P i (busWrite k bytes s go) :=
  busWrite_ind (fun _ _ => hk) fun _ _ _ => hgo _ _

/-- A row with a read. -/
theorem busRead {n : Nat} {go : Bool → State → State} (hk : HasRow P i k)
    (hgo : ∀ ok u, LeadsOn P i (go ok u)) : LeadsOn P i (busRead k n s go) :=
  busRead_ind (fun _ _ => hk) (fun _ _ _ => hgo _ _) fun _ _ => hgo _ _

/-- A row with a write whose failure ends the command. -/
theorem writeOrStop {bytes : List Byte} (hk : HasRow P i k) (hk' : HasRow P i (k + 1)) :
    LeadsOn P i (rowWriteOrStop k bytes s) :=
  .busWrite hk fun ok _ => by
    cases ok with
    | false => exact .ended
    | true => exact .goto hk'

end LeadsOn

theorem tickRead_leadsOn {mask : BitVec 3} (h : tickRead P mask s = some t) : LeadsOn P (.read mask) t := by
  unfold tickRead at h
  split at h <;> cases h
  case h_1 => exact .testReady (hasRow_read (by decide))
  case h_2 => exact .writeOrStop (hasRow_read (by decide)) (hasRow_read (by decide))
  case h_3 => exact .goto (hasRow_read (by decide))
  case h_4 =>
    refine .busWrite (hasRow_read (by decide)) fun ok _ => ?_
    cases ok with
    | false => exact .ended
    | true => exact .goto (hasRow_read (by decide))
  case h_5 =>
    refine .busRead (hasRow_read (by decide)) fun ok _ => ?_
    cases ok with
    | false => exact .ended
    | true => exact .goto (hasRow_read (by decide))
  case h_6 => exact .ended

/-- A row waits where it stands, ends its command, or goes on to another row. -/
theorem tickCommand_leadsOn (h : tickCommand P i s = some t) : LeadsOn P i t := by
  have hlong : (∀ k ≤ 9, HasRow P i k) → LeadsOn P i t := fun hrow => by
    have hs := hasRow_of_tickCommand h
    cases tickCommand_rowTo h with
    | waits => exact fun _ => hs
    | ends => exact .ended
    | goes _ _ hk9 => exact .goto (hrow _ hk9)
  cases i with
  | init _ => exact hlong fun _ => hasRow_init
  | intEnable => exact hlong fun _ => hasRow_intEnable
  | read mask => exact tickRead_leadsOn h
  | setThresh | intDisable =>
    simp only [tickCommand, tickSetThresh, tickIntDisable] at h
    split at h <;> cases h
    case h_1 => exact .testReady fun _ hu => by cases hu
    case h_2 => exact .busWrite (fun _ hu => by cases hu) fun _ _ => .ended
  | intQuery | intHandle =>
    simp only [tickCommand, tickIntQuery, tickIntHandle] at h
    split at h <;> cases h
    case h_1 => exact .testReady fun _ hu => by cases hu
    case h_2 => exact .writeOrStop (fun _ hu => by cases hu) fun _ hu => by cases hu
    case h_3 => exact .busRead (fun _ hu => by cases hu) fun _ _ => .ended
  | wrThreshAct _ | wrActInactCtl _ | wrBwRate _ | wrPowerCtl _ | wrIntEnable _ => cases h
  | rdDevid | rdIntEnable | rdIntSource | rdData => cases h

/-- A run from a row of the command's table does not fault. -/
theorem runSteps_noFault : ∀ {n : Nat} {s : State}, currentCommand s = .instr i → HasRow P i s.stepNo →
    NoFault (runSteps P n s) := by
  intro n
  induction n with
  | zero => intro s _ _; exact noFault_next s
  | succ n ih =>
    intro s hc hrow
    obtain ⟨t, ht⟩ := Option.ne_none_iff_exists'.1 (hrow s)
    have ht : tickCommand P i s = some t := ht
    rw [runSteps_row hc ht]
    split
    next hgo =>
      obtain ⟨-, hop, harg⟩ := tickCommand_sameCommand ht
      exact ih ((currentCommand_congr hop harg).trans hc) (tickCommand_leadsOn ht (Bool.and_eq_true_iff.1 hgo).1)
    next => exact noFault_next t

end

/-! ### The step -/

theorem exec_noFault (i : Instr) (s : State) : NoFault (exec i s) := by
  cases i <;> exact noFault_next _

/-- A register-level operation goes on from each transaction it may wait at. -/
theorem resumeRegisterOp_noFault {dev : Byte} {r : Request} (h : standsAlone dev r = true) (s : State) :
    NoFault (resumeRegisterOp r s) := by
  cases r with
  | read a n => exact noFault_next _
  | write a bytes =>
    match bytes, (Bool.and_eq_true_iff.1 h).2 with
    | [_], _ | [_, _], _ => exact noFault_next _

/-- Settles O16: a command in progress stands at a row of its table, an operation at a transaction of its own. -/
theorem noStepFaults : Obligations.NoStepFaults := by
  intro s hs
  obtain ⟨-, h⟩ | ⟨-, hb, h⟩ | ⟨-, hb, r, hq, h⟩ | ⟨-, -, h⟩ | ⟨-, _, _, i, -, -, -, h⟩ | ⟨-, _, _, _, -, -, -, h⟩
    | ⟨-, e, rest, _, -, -, h⟩ | ⟨-, _, _, _, -, h⟩ := step_cases s
  all_goals rw [h]
  · obtain ⟨hrefused, -⟩ | ⟨hnext, -⟩ := takeReset_cases (takeInput s.inbox.tail s)
    · rw [hrefused]; exact noFault_refused _
    · rw [hnext]; exact noFault_next _
  · obtain ⟨i, r, hc, -, hrow⟩ := hs.busy_row hb
    exact runSteps_noFault hc (hasRow_of_rowRequest hrow)
  · exact resumeRegisterOp_noFault (hs.idle_req hb r hq) s
  · exact noFault_next s
  · exact exec_noFault i _
  · exact noFault_next _
  · cases e with
    | command w => exact noFault_next _
    | registerOp bytes => exact noFault_refused _
  · exact noFault_next _

end Sys2Proof.Machine
end

section
/-! PROOF. The command-only states (60_exceptions.md R237, R241). There an idle machine has nothing outstanding and
takes no register-level operation, so that a step runs a command, takes a reserved word or a reset, or leaves SEQ as it
was. -/

namespace Sys2Proof.Machine

/-- A row leaves nothing outstanding but its own transaction. -/
theorem RowTo.outstanding {P : Params} {i : Instr} {s t : State} (h : RowTo P i s t)
    (hs : s.req = none ∨ (rowRequest P i s.stepNo.toNat s.devaddr).isSome = true) :
    t.req = none ∨ (rowRequest P i t.stepNo.toNat t.devaddr).isSome = true := by
  cases h with
  | waits hr => exact .inr (Option.isSome_of_eq_some hr)
  | ends _ _ hreq hf | goes _ _ _ _ hreq hf => exact .inl (hf.req.trans (hreq hs))

/-- A command that ends leaves nothing outstanding: STEP 0 has no transaction. -/
theorem RunsFrom.req_eq_none_of_ended {i : Instr} {s u t : State} (hu : RunsFrom i s u) (hs : s.Inv)
    (h : runSteps params 10 u = .next t) (hb : t.busy = false) : t.req = none := by
  have hstart : u.req = none ∨ (rowRequest params i u.stepNo.toNat u.devaddr).isSome = true := by
    cases hu with
    | resumed hb hc => exact (AtRow.of_inv hs hb hc).req
    | accepted => exact .inl rfl
  have hend : t.req = none ∨ (rowRequest params i t.stepNo.toNat t.devaddr).isSome = true :=
    runSteps_ind (fun _ _ _ hv hw => (tickCommand_rowTo hw).outstanding hv) hu.busy hu.command hstart h
  refine hend.resolve_right fun hrow => ?_
  rw [(hu.inv hs h).idle_step hb] at hrow
  cases (congrArg Option.isSome (rowRequest_zero params i t.devaddr)).symm.trans hrow

/-- The run of a command leaves a command-only state where no register-level operation is presented. -/
theorem RunsFrom.commandOnly {i : Instr} {s u t : State} (hu : RunsFrom i s u) (hs : s.Inv)
    (hinbox : u.inbox.all HostEvent.onHardware = true) (h : runSteps params 10 u = .next t) : t.CommandOnly :=
  ⟨(runSteps_sameCommand hu.busy hu.command h).1 ▸ hinbox, hu.req_eq_none_of_ended hs h⟩

/-- What the hardware's host issues is a command word. -/
theorem exists_command_of_onHardware {e : Encoding} (h : (HostEvent.issue e).onHardware = true) :
    ∃ w, e = .command w := by
  cases e with
  | command w => exact ⟨w, rfl⟩
  | registerOp bytes => cases h

/-- A command word that the decoder rejects is a reserved one. -/
theorem reserved_of_decodeCommand {w : CmdWord} {r : Reject} (h : decodeCommand w = .rejected r) :
    CmdWord.reserved w = true := by
  obtain ⟨_, i, -, -, hi⟩ | ⟨-, hrej⟩ := decodeCommand_cases w
  · cases hi.symm.trans h
  · exact (reservedWordsAreTheListed w).1 hrej

/-- Settles O60: the first case for a command in progress or accepted, the others where no command runs. -/
theorem transactionsBelongToCommands : Obligations.TransactionsBelongToCommands := by
  intro s t hs ⟨hinbox, hidle⟩ h
  have hcommand : ∀ {i u}, isCommand i = true → running s = some i → RunsFrom i s u →
      u.inbox.all HostEvent.onHardware = true → runSteps params 10 u = .next t → t.CommandOnly ∧
        ∃ i, running s = some i ∧ isCommand i = true
          ∧ (t.trace ≠ s.trace ∨ t.req.isSome = true → t.devaddr.getLsbD 0 = false) :=
    fun hi hrun hu hin ht => ⟨hu.commandOnly hs hin ht, _, hrun, hi, fun htr => (transaction_addressed hs h htr).2⟩
  have htail : s.inbox.tail.all HostEvent.onHardware = true :=
    List.all_eq_true.2 fun e he => List.all_eq_true.1 hinbox e (List.mem_of_mem_tail he)
  have htaken : ∀ {e rest}, s.inbox = e :: rest → e.onHardware = true ∧ rest.all HostEvent.onHardware = true :=
    fun hx => by rw [hx] at hinbox; exact Bool.and_eq_true_iff.1 hinbox
  obtain ⟨hr, hstep⟩ | ⟨hr, hb, hstep⟩ | ⟨-, hb, r, hq, -⟩ | ⟨-, hx, hstep⟩ | ⟨hi, e, rest, i, hx, hd, ha, hstep⟩
    | ⟨-, e, rest, i, hx, -, ha, -⟩ | ⟨hi, e, rest, r, hx, hd, hstep⟩ | ⟨-, r, v, rest, hx, hstep⟩ := step_cases s
  · rw [hstep] at h
    obtain ⟨hrefused, -⟩ | ⟨hnext, -⟩ := takeReset_cases (takeInput s.inbox.tail s)
    · cases hrefused.symm.trans h
    · cases hnext.symm.trans h
      exact ⟨⟨htail, fun _ => rfl⟩, .inr (.inr (.inl ⟨hr, rfl, rfl, rfl⟩))⟩
  · rw [hstep] at h
    obtain ⟨i, hc, hi⟩ := currentCommand_of_resumeCommand h
    exact (hcommand hi (running_of_busy hr hb hc) (.resumed hb hc) hinbox h).imp_right .inl
  · cases hq.symm.trans (hidle hb)
  · cases hstep.symm.trans h
    exact ⟨⟨hinbox, hidle⟩, .inr (.inr (.inr (by rw [hx, List.tail_nil, ← hx])))⟩
  · obtain ⟨w, rfl⟩ := exists_command_of_onHardware (htaken hx).1
    have hcmd := isCommand_of_decodeCommand hd
    have hw := encode_of_decodeCommand hd
    rw [hstep, bigStepIsTheStepTable i w _ hcmd hw] at h
    exact (hcommand hcmd (running_of_issue hi hx hd ha) (.accepted hi hw) (htaken hx).2 h).imp_right .inl
  · obtain ⟨w, rfl⟩ := exists_command_of_onHardware (htaken hx).1
    cases ha
  · obtain ⟨w, rfl⟩ := exists_command_of_onHardware (htaken hx).1
    cases hstep.symm.trans h
    exact ⟨⟨(htaken hx).2, fun _ => rfl⟩, .inr (.inl ⟨w, rest, hi, hx, reserved_of_decodeCommand hd, rfl, rfl, rfl⟩)⟩
  · cases hstep.symm.trans h
    exact ⟨⟨(htaken hx).2, hidle⟩, .inr (.inr (.inr (by rw [hx]; rfl)))⟩

end Sys2Proof.Machine
end

section
/-! PROOF. Every command ends once the transport answers (70_reset_and_hazards.md R272). A row of a step table makes the
transaction the table has at STEP and no other, and the transactions of every table stand at steps 1 to 8. So a
transport that answers eight transactions answers a whole run, whose rows then never wait, and the run ends at step 9
at the latest. -/

namespace Sys2Proof.Machine

/-! ### A row and the port -/

/-- `t` has the transport and the outstanding transaction of `s`. -/
structure KeepsPort (s t : State) : Prop where
  bus : t.bus = s.bus
  req : t.req = s.req

/-- `t` is `s` after the transaction `o` at most: without one the port is as it was, else the transaction has been
answered, or the transport has not answered it. -/
inductive PortStep (s : State) : Option Request → State → Prop where
  | silent {t : State} (h : KeepsPort s t) : PortStep s none t
  | answered {r : Request} {a : Answer} {t : State} (h : s.bus.respond r = some (a, t.bus)) (hreq : t.req = none) :
      PortStep s (some r) t
  | unanswered {r : Request} {t : State} (h : s.bus.respond r = none) : PortStep s (some r) t

namespace PortStep

variable {s : State} {k : BitVec 4}

/-- A row with a write. -/
theorem busWrite {bytes : List Byte} {go : Bool → State → State} (hgo : ∀ ok u, KeepsPort u (go ok u)) :
    PortStep s (some (.write s.devaddr bytes)) (busWrite k bytes s go) := by
  refine busWrite_ind (fun hnone => .unanswered hnone) fun a t h => ?_
  have hkeep := hgo a.ok (Machine.answered (.write s.devaddr bytes a.ok) t s)
  exact .answered (h.trans (by rw [hkeep.bus]; rfl)) hkeep.req

/-- A row with a read. -/
theorem busRead {n : Nat} {go : Bool → State → State} (hgo : ∀ ok u, KeepsPort u (go ok u)) :
    PortStep s (some (.read s.devaddr n)) (busRead k n s go) := by
  refine busRead_ind (fun hnone => .unanswered hnone) (fun d t h => ?_) fun t h => ?_
  · have hkeep := hgo true (fillBuf n d (Machine.answered (.read s.devaddr n true (Bytes6.firstN n d)) t s))
    exact .answered (h.trans (by rw [hkeep.bus]; rfl)) hkeep.req
  · have hkeep := hgo false (scrambleBuf (Machine.answered (.read s.devaddr n false []) t s))
    exact .answered (h.trans (by rw [hkeep.bus]; rfl)) hkeep.req

/-- A row that tests RDY. -/
theorem ifReady {go : State → State} (hgo : KeepsPort s (go s)) : PortStep s none (ifReady s go) :=
  ifReady_ind (fun _ => .silent ⟨rfl, rfl⟩) fun _ => .silent hgo

/-- A row with a write whose failure ends the command. -/
theorem writeOrStop {bytes : List Byte} : PortStep s (some (.write s.devaddr bytes)) (rowWriteOrStop k bytes s) :=
  .busWrite fun ok _ => by cases ok <;> exact ⟨rfl, rfl⟩

end PortStep

section Row

variable {P : Params} {i : Instr} {s t : State}

theorem tickInit_port {a7 : BitVec 7} (h : tickInit P a7 s = some t) :
    PortStep s (rowRequest P (.init a7) s.stepNo.toNat s.devaddr) t := by
  unfold tickInit at h
  split at h <;> cases h
  case h_1 hk | h_10 hk => rw [hk]; exact .silent ⟨rfl, rfl⟩
  case h_2 hk => rw [hk]; exact .writeOrStop
  case h_3 hk => rw [hk]; exact .busRead fun ok u => by split <;> exact ⟨rfl, rfl⟩
  case h_4 hk | h_5 hk | h_6 hk | h_7 hk | h_8 hk | h_9 hk => rw [hk]; exact .busWrite fun _ _ => ⟨rfl, rfl⟩

theorem tickRead_port {mask : BitVec 3} (h : tickRead P mask s = some t) :
    PortStep s (rowRequest P (.read mask) s.stepNo.toNat s.devaddr) t := by
  unfold tickRead at h
  split at h <;> cases h
  case h_1 hk => rw [hk]; exact .ifReady ⟨rfl, rfl⟩
  case h_2 hk => rw [hk]; exact .writeOrStop
  case h_3 hk | h_6 hk => rw [hk]; exact .silent ⟨rfl, rfl⟩
  case h_4 hk => rw [hk]; exact .busWrite fun ok _ => by cases ok <;> exact ⟨rfl, rfl⟩
  case h_5 hk => rw [hk]; exact .busRead fun ok _ => by cases ok <;> exact ⟨rfl, rfl⟩

theorem tickIntEnable_port (h : tickIntEnable P s = some t) :
    PortStep s (rowRequest P .intEnable s.stepNo.toNat s.devaddr) t := by
  have hp := flushPos_toNat_le P.flushPos
  simp only [tickIntEnable] at h
  split at h
  next hk => cases h; rw [hk]; exact .ifReady ⟨rfl, rfl⟩
  next h0 =>
  split at h
  next h9 =>
    cases h
    have hr : rowRequest P .intEnable s.stepNo.toNat s.devaddr = none := by
      simp [rowRequest, configSequence, h9, show 9 ≠ P.flushPos.toNat + 1 by omega,
        show 9 ≠ P.flushPos.toNat + 2 by omega, show ¬ 9 ≤ P.flushPos.toNat by omega]
    rw [hr]; exact .silent ⟨rfl, rfl⟩
  next =>
  simp only [rowRequest, if_neg h0]
  split at h
  next hsel => cases h; rw [if_pos hsel]; exact .busWrite fun _ _ => ⟨rfl, rfl⟩
  next hsel =>
  rw [if_neg hsel]
  split at h
  next hread => cases h; rw [if_pos hread]; exact .busRead fun _ _ => ⟨rfl, rfl⟩
  next hread =>
  rw [if_neg hread]
  split at h
  next w hw =>
    split at h <;> cases h
    rw [hw]; exact .busWrite fun _ _ => ⟨rfl, rfl⟩
  next => cases h

/-- A row makes the transaction that its table has at STEP, and no other. -/
theorem tickCommand_port (h : tickCommand P i s = some t) :
    PortStep s (rowRequest P i s.stepNo.toNat s.devaddr) t := by
  cases i with
  | init a7 => exact tickInit_port h
  | read mask => exact tickRead_port h
  | intEnable => exact tickIntEnable_port h
  | setThresh | intDisable =>
    simp only [tickCommand, tickSetThresh, tickIntDisable] at h
    split at h <;> cases h
    case h_1 hk => rw [hk]; exact .ifReady ⟨rfl, rfl⟩
    case h_2 hk => rw [hk]; exact .busWrite fun _ _ => ⟨rfl, rfl⟩
  | intQuery | intHandle =>
    simp only [tickCommand, tickIntQuery, tickIntHandle] at h
    split at h <;> cases h
    case h_1 hk => rw [hk]; exact .ifReady ⟨rfl, rfl⟩
    case h_2 hk => rw [hk]; exact .writeOrStop
    case h_3 hk => rw [hk]; exact .busRead fun _ _ => ⟨rfl, rfl⟩
  | wrThreshAct _ | wrActInactCtl _ | wrBwRate _ | wrPowerCtl _ | wrIntEnable _ => cases h
  | rdDevid | rdIntEnable | rdIntSource | rdData => cases h

/-! ### Where the transactions stand -/

/-- A configuration write is one of six, and of the form of two bytes. -/
theorem configRequest_form {j : Nat} {dev : Byte} {r : Request}
    (h : (configSequence P)[j]?.map (fun w => Request.write dev [w.1, w.2]) = some r) : r.form = true ∧ j < 6 := by
  obtain ⟨w, hw, rfl⟩ := Option.map_eq_some_iff.1 h
  obtain ⟨hj, -⟩ := List.getElem?_eq_some_iff.1 hw
  exact ⟨rfl, hj⟩

/-- The transactions of the tables have the forms of 30_encoding.md R90 and stand at steps 1 to 8. -/
theorem rowRequest_form {k : Nat} {dev : Byte} {r : Request} (h : rowRequest P i k dev = some r) :
    r.form = true ∧ 1 ≤ k ∧ k ≤ 8 := by
  cases i with
  | init a7 =>
    simp only [rowRequest] at h
    split at h
    · cases h; exact ⟨rfl, by decide⟩
    · cases h; exact ⟨rfl, by decide⟩
    · split at h
      · obtain ⟨hform, hj⟩ := configRequest_form h
        exact ⟨hform, by omega⟩
      · cases h
  | intEnable =>
    have hp := flushPos_toNat_le P.flushPos
    simp only [rowRequest] at h
    split at h
    · cases h
    split at h
    · cases h; exact ⟨rfl, by omega⟩
    split at h
    · cases h; exact ⟨rfl, by omega⟩
    obtain ⟨hform, hj⟩ := configRequest_form h
    exact ⟨hform, by split at hj <;> omega⟩
  | read _ | setThresh _ | intQuery | intDisable | intHandle =>
    simp only [rowRequest] at h
    split at h <;> cases h <;> exact ⟨rfl, by omega⟩
  | wrThreshAct _ | wrActInactCtl _ | wrBwRate _ | wrPowerCtl _ | wrIntEnable _ => cases h
  | rdDevid | rdIntEnable | rdIntSource | rdData => cases h

/-- How many transactions a run from step `k` makes at most. -/
def transactionsLeft (k : BitVec 4) : Nat := 9 - max 1 k.toNat

/-- A row whose transaction is answered leaves nothing outstanding, and a later row's transactions to be answered. -/
theorem InProgress.row_answered (hs : InProgress i s) (ha : s.bus.Answers (transactionsLeft s.stepNo))
    (h : tickCommand P i s = some t) :
    t.req = none ∧ ∀ k, s.stepNo < k → t.bus.Answers (transactionsLeft k) := by
  have hport := tickCommand_port h
  cases hrow : rowRequest P i s.stepNo.toNat s.devaddr with
  | none =>
    rw [hrow] at hport
    obtain ⟨hbus, hreq⟩ : KeepsPort s t := by cases hport; assumption
    exact ⟨hreq.trans hs.req, fun k hk => hbus ▸ ha.mono (by unfold transactionsLeft; bv_omega)⟩
  | some r =>
    rw [hrow] at hport
    obtain ⟨hform, h1, h8⟩ := rowRequest_form hrow
    obtain ⟨n, hn⟩ : ∃ n, transactionsLeft s.stepNo = n + 1 :=
      Nat.exists_eq_add_one.2 (by unfold transactionsLeft; omega)
    obtain ⟨a, b, hresp, hb⟩ := (hn ▸ ha).respond hform
    cases hport with
    | answered h' hreq =>
      obtain ⟨-, rfl⟩ := Prod.mk.inj (Option.some.inj (hresp.symm.trans h'))
      exact ⟨hreq, fun k hk => hb.mono (by unfold transactionsLeft at hn ⊢; bv_omega)⟩
    | unanswered h' => cases hresp.symm.trans h'

end Row

/-! ### The run of a command -/

/-- A run from a row of the command's table ends, with one response given, where the transport answers. -/
theorem runSteps_completes {P : Params} {i : Instr} : ∀ {n : Nat} {s : State}, InProgress i s →
    HasRow P i s.stepNo → s.stepNo ≤ 9 → 10 ≤ n + s.stepNo.toNat → s.bus.Answers (transactionsLeft s.stepNo) →
    ∃ t, runSteps P n s = .next t ∧ t.Idle ∧ ResponseGiven s t := by
  intro n
  induction n with
  | zero => intro s _ _ h9 hn; bv_omega
  | succ n ih =>
    intro s hs hrow h9 hn ha
    obtain ⟨t, ht⟩ : ∃ t, tickCommand P i s = some t := Option.ne_none_iff_exists'.1 (hrow s)
    obtain ⟨hreq, hleft⟩ := hs.row_answered ha ht
    have hon := tickCommand_leadsOn ht
    cases tickCommand_rowTo ht with
    | waits => cases hreq
    | @ends u f ok ev _ hu _ hf =>
      obtain ⟨-, -, hd⟩ := hu.responseKept.trans (hf.responseKept u)
      exact ⟨_, (runSteps_row hs.command ht).trans rfl, ⟨rfl, hreq⟩,
        congrArg (· ++ [Delivery.response ok ev]) hd, rfl, rfl⟩
    | @goes u f k _ hk hk9 hu _ hf =>
      have hgoes : InProgress i (goto k (f u)) := ⟨hf.busy.trans (hu.busy.trans hs.busy), hreq,
        hf.currentCommand.trans (hu.currentCommand.trans hs.command)⟩
      have hn' : 10 ≤ n + k.toNat := by bv_omega
      obtain ⟨t, hrun, hidle, hgiven, hend⟩ := ih hgoes (hon hgoes.busy) hk9 hn' (hleft k hk)
      obtain ⟨-, -, hd⟩ := hu.responseKept.trans (hf.responseKept u)
      exact ⟨t, (hs.runSteps_row hgoes ht).trans hrun, hidle, hgiven.trans (congrArg (· ++ _) hd), hend⟩

/-- Every command has a step 0. -/
theorem hasRow_zero {P : Params} {i : Instr} (hi : isCommand i = true) : HasRow P i 0 := by
  intro s h
  cases i with
  | init _ | read _ | setThresh _ | intQuery | intEnable | intDisable | intHandle => cases h
  | wrThreshAct _ | wrActInactCtl _ | wrBwRate _ | wrPowerCtl _ | wrIntEnable _ => cases hi
  | rdDevid | rdIntEnable | rdIntSource | rdData => cases hi

/-- Settles O23: the run of the command's table from step 0. -/
theorem commandsEndWhenAnswered : Obligations.CommandsEndWhenAnswered := by
  intro i s hi ha
  obtain ⟨w, hw⟩ := exists_encode_command hi
  obtain ⟨t, hrun, hidle, hgiven, -, hstep⟩ :=
    runSteps_completes (P := params) (n := 10) (inProgress_accept hw s) (hasRow_zero hi) (by simp) (by simp) ha
  exact ⟨t, (bigStepIsTheStepTable i w s hi hw).trans hrun, hidle, hstep, hgiven⟩

/-- Settles O24: the row a command waits at is the row it would run with nothing outstanding. -/
theorem waitingCommandEndsWhenAnswered : Obligations.WaitingCommandEndsWhenAnswered := by
  intro s hs hb hr ha
  obtain ⟨i, r, hc, hq, hrow⟩ := hs.busy_row hb
  obtain ⟨-, -, h8⟩ := rowRequest_form hrow
  have hprogress : InProgress i { s with req := none } := ⟨hb, rfl, hc⟩
  obtain ⟨t, hrun, hidle, hgiven, -, hstep⟩ := runSteps_completes (P := params) (n := 10) hprogress
    (hasRow_of_rowRequest hrow) (by bv_omega) (by omega) (ha.mono (by unfold transactionsLeft; omega))
  refine ⟨t, ?_, hidle, hstep, hgiven⟩
  have hwaits : tickCommand params i s = tickCommand params i { s with req := none } := by
    have h := tickCommand_await (s := { s with req := none }) hrow
    rwa [show await _ r { s with req := none } = s from await_of_req hq] at h
  exact (step_of_busy hr hb).trans ((runSteps_of_row_eq hc hprogress.command hwaits).trans hrun)

end Sys2Proof.Machine
end

section
/-! PROOF. Reset (70_reset_and_hazards.md R260 to R262): what holds after it, and the reset input between commands and
during one. -/

namespace Sys2Proof.Machine

/-- Settles O11: the reset values. -/
theorem resetState : Obligations.ResetState := ⟨rfl, rfl, rfl, rfl, rfl, rfl, rfl, rfl⟩

/-- Settles O14: right after reset the machine is idle, with nothing presented. -/
theorem invAfterReset : Obligations.InvAfterReset :=
  ⟨inv_of_idle ⟨rfl, rfl⟩ rfl rfl (fun h => by cases h), rfl, fun _ => rfl⟩

/-- A reset input at the head is what the step takes. -/
theorem step_of_reset_cons {s : State} {rest : List HostEvent} (h : s.inbox = .reset :: rest) :
    step s = takeReset (takeInput rest s) := by
  rw [step_of_reset (by simp [resetPresented, h]), h, List.tail_cons]

/-- Settles O12: between commands the reset is taken. -/
theorem resetInputResets : Obligations.ResetInputResets := by
  intro s rest ⟨hb, hq⟩ hx
  rw [step_of_reset_cons hx]
  obtain ⟨-, hbusy | hreq⟩ | ⟨hnext, -⟩ := takeReset_cases (takeInput rest s)
  · cases hb.symm.trans hbusy
  · rw [takeInput_req, hq] at hreq; cases hreq
  · exact ⟨_, hnext, rfl, rfl, rfl, rfl, rfl, rfl, rfl, rfl, rfl, rfl⟩

/-- Settles O13: during a command the reset is refused. -/
theorem resetDuringCommandRefused : Obligations.ResetDuringCommandRefused := by
  intro s rest hb hx
  rw [step_of_reset_cons hx]
  obtain ⟨hrefused, -⟩ | ⟨-, hidle, -⟩ := takeReset_cases (takeInput rest s)
  · exact hrefused
  · cases hb.symm.trans hidle

end Sys2Proof.Machine
end

section
/-! PROOF. INIT on a machine wired to the reference chip (70_reset_and_hazards.md R264, 95_test_vectors.md section 4).
At the chip's own address the identity matches and every configuration write is answered with success; at another
address the chip answers the select with failure and keeps what it had. -/

namespace Sys2Proof.Machine

/-- Different 7-bit addresses have different bus forms (30_encoding.md R83). -/
theorem busForm_injective : Function.Injective busForm := by
  intro a b h
  have ha := (busFormIsTwiceTheAddress a).1
  have hb := (busFormIsTwiceTheAddress b).1
  rw [h] at ha
  exact BitVec.eq_of_toNat_eq (by omega)

/-- The chip stores every write of a list to its address, none of them to the identity, and answers it with success. -/
theorem RefChip.replies_writes {ws : List (Byte × Byte)} (hws : ∀ w ∈ ws, w.1 ≠ regDevid) (c : RefChip) :
    ∃ as, (Transport.chip c).replies (writeRequests (busForm c.addr7) ws) = some (as, .chip (c.storeAll ws))
      ∧ as.all Answer.ok = true := by
  induction ws generalizing c with
  | nil => exact ⟨[], Transport.replies_nil _, rfl⟩
  | cons w ws ih =>
    obtain ⟨hw, hws⟩ := List.forall_mem_cons.1 hws
    obtain ⟨as, hrest, hok⟩ := ih hws (c.store w.1 w.2)
    have hfirst : (Transport.chip c).respond (.write (busForm c.addr7) [w.1, w.2])
        = some (.success c.bytesAtPtr, .chip (c.store w.1 w.2)) := by
      rw [Transport.respond, RefChip.respond, if_pos rfl, if_neg hw]; rfl
    exact ⟨.success c.bytesAtPtr :: as, Transport.replies_cons_cons.2 ⟨_, hfirst, hrest⟩, hok⟩

/-- The chip after INIT at its address: the identity read, and the configuration writes. -/
def RefChip.configured (P : Params) (c : RefChip) : RefChip :=
  ((c.select regDevid).afterRead 1).storeAll (configSequence P)

/-- The identity read changes no register, and each configuration register holds what was last written to it. -/
theorem RefChip.reg_configured {c : RefChip} (h : c.regs.wf = true) (P : Params) (a : Byte) :
    (c.configured P).reg a = lastWritten a (configSequence P) (c.reg a) := by
  have hread : ((c.select regDevid).afterRead 1).reg a = c.reg a := by
    rw [RefChip.reg_afterRead (c := c.select regDevid) h, if_neg (by simp [RefChip.select]), RefChip.reg_select]
  rw [RefChip.configured, RefChip.reg_storeAll (RefChip.afterRead_wf (c := c.select regDevid) 1 h), hread]

theorem lastWritten_of_not_written {a : Byte} {ws : List (Byte × Byte)} (h : ∀ w ∈ ws, w.1 ≠ a) (old : Byte) :
    lastWritten a ws old = old := by
  induction ws with
  | nil => rfl
  | cons w ws ih =>
    obtain ⟨hw, hws⟩ := List.forall_mem_cons.1 h
    rw [lastWritten, List.foldl_cons, if_neg hw.symm]
    exact ih hws

/-- INIT with the chip's address succeeds. -/
theorem exec_init_wired {s : State} {c : RefChip} (hbus : s.bus = .chip c) (hid : c.reg 0x00 = 0xE5) :
    ∃ t, exec (.init c.addr7) s = .next t ∧ t.busy = false ∧ t.rdy = true
      ∧ t.bus = .chip (c.configured params) := by
  have hwired : Wired (beginInit c.addr7 (accept (initWord c.addr7) s)) c := ⟨hbus, rfl⟩
  obtain ⟨as, hwrites, hok⟩ :=
    RefChip.replies_writes (configSequence_ne_devid params) ((c.select regDevid).afterRead 1)
  rw [RefChip.afterRead_addr7] at hwrites
  rw [exec_init_eq_regRead, hwired.regRead, configureOnMatch_of_eq hid rfl hwrites]
  exact ⟨_, rfl, rfl, hok, rfl⟩

/-- INIT with another address fails at its select, and the chip is as it was. -/
theorem exec_init_misaddressed {a7 : BitVec 7} {s : State} {c : RefChip} (hbus : s.bus = .chip c)
    (ha : a7 ≠ c.addr7) :
    ∃ t, exec (.init a7) s = .next t ∧ t.busy = false ∧ t.rdy = false ∧ t.bus = .chip c := by
  have hselect : s.bus.respond (.write (busForm a7) [regDevid]) = some (.failure, .chip c) := by
    rw [hbus, Transport.respond, RefChip.respond, if_neg (busForm_injective.ne ha)]; rfl
  rw [exec_init_eq_regRead, regRead_select_failed (s := beginInit a7 (accept (initWord a7) s)) hselect,
    configureOnMatch_of_failed]
  exact ⟨_, rfl, rfl, rfl, rfl⟩

/-- Settles O52: by whether the operand is the chip's address. -/
theorem initConfiguresTheChip : Obligations.InitConfiguresTheChip := by
  intro a7 s c hbus hwf hid
  by_cases ha : a7 = c.addr7
  · subst ha
    obtain ⟨t, ht, hb, hrdy, hchip⟩ := exec_init_wired hbus hid
    have hreg : ∀ a, t.bus.reg a = some (lastWritten a (configSequence params) (c.reg a)) := fun a => by
      rw [hchip]; exact congrArg some (RefChip.reg_configured hwf params a)
    refine ⟨t, ht, hb, iff_of_true hrdy rfl, fun _ => ⟨hreg _, hreg _, hreg _, hreg _, hreg _, fun x hx => ?_⟩,
      fun h => absurd rfl h⟩
    have hkept : ∀ w ∈ configSequence params, w.1 ≠ x := fun w hw => by
      rintro rfl; exact hx (configSequence_stored params w hw)
    rw [hreg, lastWritten_of_not_written hkept, hbus]; rfl
  · obtain ⟨t, ht, hb, hrdy, hchip⟩ := exec_init_misaddressed hbus ha
    exact ⟨t, ht, hb, iff_of_false (by simp [hrdy]) ha, fun h => absurd h ha, fun _ => hchip.trans hbus.symm⟩

end Sys2Proof.Machine
end
